-- ==== Sys2Proof/Word.lean ====
section
/-! DEFINITION. The widths of 00_scope R10: bytes, 12-bit addresses, 16-bit instruction words, register names. -/

namespace Sys2Proof

/-- 8 bits: V registers, immediates `kk`, timers and memory bytes (R10). -/
abbrev Byte := BitVec 8

/-- 12 bits: `pc`, `I`, `nnn` and call-stack entries (R7, R10). -/
abbrev Addr := BitVec 12

/-- A 16-bit instruction word (R70). -/
abbrev Word := BitVec 16

/-- The name of one of the 16 general registers V0..VF (R22); `15` is VF. -/
abbrev Reg := Fin 16

end Sys2Proof
end

