-- ==== Sys2Proof/Syntax.lean ====
section
/-! DEFINITION. The instructions: one constructor for each row of spec/opcode_table.json (30_encoding R75), the
unmapped catch-all included (R76). Operands are the fields of R71 that the row's layout gives it (R72, R73). -/

namespace Sys2Proof

/-- An instruction with its operands: `x` and `y` name registers, `kk` is an immediate byte, `nnn` an absolute
address, `n` a count of sprite rows (R73). -/
inductive Instr where
  /-- 00E0 (R210). -/
  | cls
  /-- 00EE (R150). -/
  | ret
  /-- 1NNN (R151). -/
  | jp (nnn : Addr)
  /-- 2NNN (R152). -/
  | call (nnn : Addr)
  /-- 3XKK (R153). -/
  | seVxKk (x : Reg) (kk : Byte)
  /-- 4XKK (R154). -/
  | sneVxKk (x : Reg) (kk : Byte)
  /-- 5XY0 (R155). -/
  | seVxVy (x y : Reg)
  /-- 6XKK (R122). -/
  | ldVxKk (x : Reg) (kk : Byte)
  /-- 7XKK (R123). -/
  | addVxKk (x : Reg) (kk : Byte)
  /-- 8XY0 (R124). -/
  | ldVxVy (x y : Reg)
  /-- 8XY1 (R125). -/
  | or (x y : Reg)
  /-- 8XY2 (R126). -/
  | and (x y : Reg)
  /-- 8XY3 (R127). -/
  | xor (x y : Reg)
  /-- 8XY4 (R128). -/
  | addVxVy (x y : Reg)
  /-- 8XY5 (R129). -/
  | sub (x y : Reg)
  /-- 8XY6 (R130). The `y` field is decoded and not read; it is kept so that a word can be given back. -/
  | shr (x y : Reg)
  /-- 8XY7 (R131). -/
  | subn (x y : Reg)
  /-- 8XYE (R132). The `y` field is decoded and not read. -/
  | shl (x y : Reg)
  /-- 9XY0 (R156). -/
  | sneVxVy (x y : Reg)
  /-- ANNN (R180). -/
  | ldINnn (nnn : Addr)
  /-- BNNN (R157). -/
  | jpV0Nnn (nnn : Addr)
  /-- CXKK (R141). -/
  | rnd (x : Reg) (kk : Byte)
  /-- DXYN (R211). -/
  | drw (x y : Reg) (n : Fin 16)
  /-- EX9E (R158). -/
  | skp (x : Reg)
  /-- EXA1 (R159). -/
  | sknp (x : Reg)
  /-- FX07 (R181). -/
  | ldVxDt (x : Reg)
  /-- FX0A (R182). -/
  | ldVxK (x : Reg)
  /-- FX15 (R183). -/
  | ldDtVx (x : Reg)
  /-- FX18 (R184). -/
  | ldStVx (x : Reg)
  /-- FX1E (R185). -/
  | addIVx (x : Reg)
  /-- FX29 (R186). -/
  | ldFVx (x : Reg)
  /-- FX33 (R187). -/
  | ldBVx (x : Reg)
  /-- FX55 (R190). -/
  | ldMemVx (x : Reg)
  /-- FX65 (R191). -/
  | ldVxMem (x : Reg)
  /-- Every other word (R76, R106); it carries the word, so that a word can be given back (log 20). -/
  | unmapped (w : Word)
deriving DecidableEq, Repr

end Sys2Proof
end

