-- ==== Sys2Proof/WellFormed.lean ====
section
/-! DEFINITION. Well-formed instructions. Every operand of a mapped instruction is in range by its type; an
`unmapped` term is well formed only when its word is one of the unmapped words of 30_encoding R76. -/

namespace Sys2Proof

/-- The table of R76, family by family: the words that no row of the opcode map selects. -/
def Word.isUnmapped (w : Word) : Bool :=
  let t := w.toNat / 4096
  let n := w.toNat % 16
  let kk := w.toNat % 256
  if t = 0 then w.toNat != 0x00E0 && w.toNat != 0x00EE
  else if t = 5 then n != 0
  else if t = 8 then n ∈ [0x8, 0x9, 0xA, 0xB, 0xC, 0xD, 0xF]
  else if t = 9 then n != 0
  else if t = 0xE then kk != 0x9E && kk != 0xA1
  else if t = 0xF then kk ∉ [0x07, 0x0A, 0x15, 0x18, 0x1E, 0x29, 0x33, 0x55, 0x65]
  else false

/-- Well-formedness: the one check there is. -/
def Instr.wellFormed : Instr → Bool
  | .unmapped w => Word.isUnmapped w
  | .cls | .ret | .jp _ | .call _ | .seVxKk _ _ | .sneVxKk _ _ | .seVxVy _ _ | .ldVxKk _ _ | .addVxKk _ _
  | .ldVxVy _ _ | .or _ _ | .and _ _ | .xor _ _ | .addVxVy _ _ | .sub _ _ | .shr _ _ | .subn _ _ | .shl _ _
  | .sneVxVy _ _ | .ldINnn _ | .jpV0Nnn _ | .rnd _ _ | .drw _ _ _ | .skp _ | .sknp _ | .ldVxDt _ | .ldVxK _
  | .ldDtVx _ | .ldStVx _ | .addIVx _ | .ldFVx _ | .ldBVx _ | .ldMemVx _ | .ldVxMem _ => true

end Sys2Proof
end

