-- ==== Sys2Proof/Decode.lean ====
section
/-! DEFINITION. Decoding (30_encoding R70 to R81): the fields of R71, the two-level dispatch of R74, the opcode map
of R75 as a table, the encoder, and the decoder on bytes. -/

namespace Sys2Proof

/-- `op[15:12]`, the family selector (R71). -/
def fieldT (w : Word) : BitVec 4 := w.extractLsb' 12 4

/-- `op[11:8]`, the first register index (R71). -/
def fieldX (w : Word) : Reg := (w.extractLsb' 8 4).toFin

/-- `op[7:4]`, the second register index (R71). -/
def fieldY (w : Word) : Reg := (w.extractLsb' 4 4).toFin

/-- `op[3:0]`, a count or a sub-opcode (R71). -/
def fieldN (w : Word) : Fin 16 := (w.extractLsb' 0 4).toFin

/-- `op[7:0]`, an immediate byte or a sub-opcode (R71). -/
def fieldKk (w : Word) : Byte := w.extractLsb' 0 8

/-- `op[11:0]`, an absolute address (R71). -/
def fieldNnn (w : Word) : Addr := w.extractLsb' 0 12

/-- Family 0 matches the whole word (R74). -/
def decodeFamily0 (w : Word) : Instr :=
  if w = 0x00E0#16 then .cls
  else if w = 0x00EE#16 then .ret
  else .unmapped w

/-- Family 8 is selected by `n` (R74). -/
def decodeFamily8 (w : Word) : Instr :=
  match (fieldN w).val with
  | 0x0 => .ldVxVy (fieldX w) (fieldY w)
  | 0x1 => .or (fieldX w) (fieldY w)
  | 0x2 => .and (fieldX w) (fieldY w)
  | 0x3 => .xor (fieldX w) (fieldY w)
  | 0x4 => .addVxVy (fieldX w) (fieldY w)
  | 0x5 => .sub (fieldX w) (fieldY w)
  | 0x6 => .shr (fieldX w) (fieldY w)
  | 0x7 => .subn (fieldX w) (fieldY w)
  | 0xE => .shl (fieldX w) (fieldY w)
  | _   => .unmapped w

/-- Family E is selected by `kk` (R74). -/
def decodeFamilyE (w : Word) : Instr :=
  match (fieldKk w).toNat with
  | 0x9E => .skp (fieldX w)
  | 0xA1 => .sknp (fieldX w)
  | _    => .unmapped w

/-- Family F is selected by `kk` (R74). -/
def decodeFamilyF (w : Word) : Instr :=
  match (fieldKk w).toNat with
  | 0x07 => .ldVxDt (fieldX w)
  | 0x0A => .ldVxK (fieldX w)
  | 0x15 => .ldDtVx (fieldX w)
  | 0x18 => .ldStVx (fieldX w)
  | 0x1E => .addIVx (fieldX w)
  | 0x29 => .ldFVx (fieldX w)
  | 0x33 => .ldBVx (fieldX w)
  | 0x55 => .ldMemVx (fieldX w)
  | 0x65 => .ldVxMem (fieldX w)
  | _    => .unmapped w

/-- `Decode(op)` (R104): the top nibble first, then the second-level selector (R74). It is total and reads the word
alone (R81); the last arm is family F, the one top nibble left. -/
def decode (w : Word) : Instr :=
  match (fieldT w).toNat with
  | 0x0 => decodeFamily0 w
  | 0x1 => .jp (fieldNnn w)
  | 0x2 => .call (fieldNnn w)
  | 0x3 => .seVxKk (fieldX w) (fieldKk w)
  | 0x4 => .sneVxKk (fieldX w) (fieldKk w)
  | 0x5 => if fieldN w = 0 then .seVxVy (fieldX w) (fieldY w) else .unmapped w
  | 0x6 => .ldVxKk (fieldX w) (fieldKk w)
  | 0x7 => .addVxKk (fieldX w) (fieldKk w)
  | 0x8 => decodeFamily8 w
  | 0x9 => if fieldN w = 0 then .sneVxVy (fieldX w) (fieldY w) else .unmapped w
  | 0xA => .ldINnn (fieldNnn w)
  | 0xB => .jpV0Nnn (fieldNnn w)
  | 0xC => .rnd (fieldX w) (fieldKk w)
  | 0xD => .drw (fieldX w) (fieldY w) (fieldN w)
  | 0xE => decodeFamilyE w
  | _   => decodeFamilyF w

/-- One row of the opcode map: it selects the words with `w &&& mask = value`, and forms the instruction from
the fields of its layout. -/
structure OpcodeRow where
  mask  : Word
  value : Word
  build : Word → Instr

/-- A row selects a word (R75). -/
def OpcodeRow.selects (r : OpcodeRow) (w : Word) : Bool := w &&& r.mask = r.value

/-- Rows 1 to 9 of R75. -/
def opcodeRowsImmediate : List OpcodeRow := [
  ⟨0xFFFF, 0x00E0, fun _ => .cls⟩,
  ⟨0xFFFF, 0x00EE, fun _ => .ret⟩,
  ⟨0xF000, 0x1000, fun w => .jp (fieldNnn w)⟩,
  ⟨0xF000, 0x2000, fun w => .call (fieldNnn w)⟩,
  ⟨0xF000, 0x3000, fun w => .seVxKk (fieldX w) (fieldKk w)⟩,
  ⟨0xF000, 0x4000, fun w => .sneVxKk (fieldX w) (fieldKk w)⟩,
  ⟨0xF00F, 0x5000, fun w => .seVxVy (fieldX w) (fieldY w)⟩,
  ⟨0xF000, 0x6000, fun w => .ldVxKk (fieldX w) (fieldKk w)⟩,
  ⟨0xF000, 0x7000, fun w => .addVxKk (fieldX w) (fieldKk w)⟩]

/-- Rows 10 to 23 of R75. -/
def opcodeRowsRegister : List OpcodeRow := [
  ⟨0xF00F, 0x8000, fun w => .ldVxVy (fieldX w) (fieldY w)⟩,
  ⟨0xF00F, 0x8001, fun w => .or (fieldX w) (fieldY w)⟩,
  ⟨0xF00F, 0x8002, fun w => .and (fieldX w) (fieldY w)⟩,
  ⟨0xF00F, 0x8003, fun w => .xor (fieldX w) (fieldY w)⟩,
  ⟨0xF00F, 0x8004, fun w => .addVxVy (fieldX w) (fieldY w)⟩,
  ⟨0xF00F, 0x8005, fun w => .sub (fieldX w) (fieldY w)⟩,
  ⟨0xF00F, 0x8006, fun w => .shr (fieldX w) (fieldY w)⟩,
  ⟨0xF00F, 0x8007, fun w => .subn (fieldX w) (fieldY w)⟩,
  ⟨0xF00F, 0x800E, fun w => .shl (fieldX w) (fieldY w)⟩,
  ⟨0xF00F, 0x9000, fun w => .sneVxVy (fieldX w) (fieldY w)⟩,
  ⟨0xF000, 0xA000, fun w => .ldINnn (fieldNnn w)⟩,
  ⟨0xF000, 0xB000, fun w => .jpV0Nnn (fieldNnn w)⟩,
  ⟨0xF000, 0xC000, fun w => .rnd (fieldX w) (fieldKk w)⟩,
  ⟨0xF000, 0xD000, fun w => .drw (fieldX w) (fieldY w) (fieldN w)⟩]

/-- Rows 24 to 34 of R75. -/
def opcodeRowsSub : List OpcodeRow := [
  ⟨0xF0FF, 0xE09E, fun w => .skp (fieldX w)⟩,
  ⟨0xF0FF, 0xE0A1, fun w => .sknp (fieldX w)⟩,
  ⟨0xF0FF, 0xF007, fun w => .ldVxDt (fieldX w)⟩,
  ⟨0xF0FF, 0xF00A, fun w => .ldVxK (fieldX w)⟩,
  ⟨0xF0FF, 0xF015, fun w => .ldDtVx (fieldX w)⟩,
  ⟨0xF0FF, 0xF018, fun w => .ldStVx (fieldX w)⟩,
  ⟨0xF0FF, 0xF01E, fun w => .addIVx (fieldX w)⟩,
  ⟨0xF0FF, 0xF029, fun w => .ldFVx (fieldX w)⟩,
  ⟨0xF0FF, 0xF033, fun w => .ldBVx (fieldX w)⟩,
  ⟨0xF0FF, 0xF055, fun w => .ldMemVx (fieldX w)⟩,
  ⟨0xF0FF, 0xF065, fun w => .ldVxMem (fieldX w)⟩]

/-- The opcode map: the 34 rows of R75. The decoder does not use it; that the two agree is a statement. -/
def opcodeMap : List OpcodeRow := opcodeRowsImmediate ++ opcodeRowsRegister ++ opcodeRowsSub

/-- The four bits of a register index or count. -/
def nibble (k : Fin 16) : BitVec 4 := BitVec.ofFin k

/-- Layout A (R72): top nibble, address. -/
def encodeA (t : BitVec 4) (nnn : Addr) : Word := t ++ nnn

/-- Layouts K and S (R72): top nibble, register, byte. -/
def encodeK (t : BitVec 4) (x : Reg) (kk : Byte) : Word := t ++ nibble x ++ kk

/-- Layouts R and D (R72): top nibble, two registers, last nibble. -/
def encodeR (t : BitVec 4) (x y : Reg) (n : Fin 16) : Word := t ++ nibble x ++ nibble y ++ nibble n

/-- The word of an instruction, from the layouts of R72 and the fixed bits of R75. -/
def encode : Instr → Word
  | .cls => 0x00E0
  | .ret => 0x00EE
  | .jp nnn => encodeA 0x1 nnn
  | .call nnn => encodeA 0x2 nnn
  | .seVxKk x kk => encodeK 0x3 x kk
  | .sneVxKk x kk => encodeK 0x4 x kk
  | .seVxVy x y => encodeR 0x5 x y 0x0
  | .ldVxKk x kk => encodeK 0x6 x kk
  | .addVxKk x kk => encodeK 0x7 x kk
  | .ldVxVy x y => encodeR 0x8 x y 0x0
  | .or x y => encodeR 0x8 x y 0x1
  | .and x y => encodeR 0x8 x y 0x2
  | .xor x y => encodeR 0x8 x y 0x3
  | .addVxVy x y => encodeR 0x8 x y 0x4
  | .sub x y => encodeR 0x8 x y 0x5
  | .shr x y => encodeR 0x8 x y 0x6
  | .subn x y => encodeR 0x8 x y 0x7
  | .shl x y => encodeR 0x8 x y 0xE
  | .sneVxVy x y => encodeR 0x9 x y 0x0
  | .ldINnn nnn => encodeA 0xA nnn
  | .jpV0Nnn nnn => encodeA 0xB nnn
  | .rnd x kk => encodeK 0xC x kk
  | .drw x y n => encodeR 0xD x y n
  | .skp x => encodeK 0xE x 0x9E
  | .sknp x => encodeK 0xE x 0xA1
  | .ldVxDt x => encodeK 0xF x 0x07
  | .ldVxK x => encodeK 0xF x 0x0A
  | .ldDtVx x => encodeK 0xF x 0x15
  | .ldStVx x => encodeK 0xF x 0x18
  | .addIVx x => encodeK 0xF x 0x1E
  | .ldFVx x => encodeK 0xF x 0x29
  | .ldBVx x => encodeK 0xF x 0x33
  | .ldMemVx x => encodeK 0xF x 0x55
  | .ldVxMem x => encodeK 0xF x 0x65
  | .unmapped w => w

/-- Why the decoder can refuse bytes: fewer than the two bytes of an instruction are there (R70). No word is
refused (R81). -/
inductive DecodeError where
  | truncated
deriving DecidableEq, Repr

/-- The word two bytes make, the byte at the lower address high (R53). -/
def wordOf (hi lo : Byte) : Word := hi ++ lo

/-- The high byte of a word, stored at the lower address (R53). -/
def highByte (w : Word) : Byte := w.extractLsb' 8 8

/-- The low byte of a word, stored at the higher address (R53). -/
def lowByte (w : Word) : Byte := w.extractLsb' 0 8

/-- Decode the instruction at the front of a list of bytes, and give the rest back. -/
def decodeBytes : List Byte → Except DecodeError (Instr × List Byte)
  | hi :: lo :: rest => .ok (decode (wordOf hi lo), rest)
  | _ => .error .truncated

/-- The bytes of an instruction as they are stored (R53). -/
def encodeBytes (i : Instr) : List Byte := [highByte (encode i), lowByte (encode i)]

/-- The instruction the decoder reads from the word numbered as spec/opcode_table.json numbers it, bits from `nbits`
up being 0: laid out big-endian, then decoded (log 29). -/
def decodeTableWord (nbits w : Nat) : Option Instr :=
  let word : Word := BitVec.ofNat 16 (w % 2 ^ nbits)
  match decodeBytes [highByte word, lowByte word] with
  | .ok (i, _) => some i
  | .error _ => none

end Sys2Proof
end

