-- ==== Sys2Proof/Config.lean ====
section
/-! DEFINITION. What the spec leaves to the model: the three named parameters of 00_scope R8, and the free
values behind the two input streams (R40, R41; 93_implementation_defined U11, U12). -/

namespace Sys2Proof

/-- Parameter KEYWAIT_TRIGGER (R8, R233, R234; log 3). -/
inductive KeywaitTrigger where
  | level
  | edge
deriving DecidableEq, Repr

/-- Parameter VF_ORDER (R8, R121; log 3). -/
inductive VfOrder where
  | flagLast
  | asListed
deriving DecidableEq, Repr

/-- Parameter FONT: 16 glyphs of 5 bytes (R7, R8, R46, R47). -/
abbrev Font := Vector (Vector Byte 5) 16

/-- The parameters of R8. They are no state of the core (R21): State carries them so that a statement about
every state covers every value of each, and no step changes them (log 3, DESIGN CHOICE). -/
structure Params where
  font    : Font
  trigger : KeywaitTrigger
  vfOrder : VfOrder
deriving DecidableEq, Repr

/-- The port values of one cycle: the key snapshot `keys_in` (R40; bit k is key k) and the random byte
`rnd_in` (R41). -/
structure Input where
  keys : BitVec 16
  rnd  : Byte
deriving DecidableEq, Repr

/-- Free value: the key snapshot of the n-th cycle for which the driver has lined up none (U12; log 1). -/
opaque Config.freeKeys : Nat → BitVec 16

/-- Free value: the random byte of the n-th cycle for which the driver has lined up none (U11, R41; log 1). -/
opaque Config.freeRnd : Nat → Byte

end Sys2Proof
end

