-- ==== Sys2Proof/Machine/Memory.lean ====
section
/-! DEFINITION. Memory as a sparse list of bytes in one canonical form (20_memory R50, R52): addresses strictly
rising, and no entry equal to what an unlisted address reads as. -/

namespace Sys2Proof.Machine

/-- The 4096 bytes of `mem` (R36, R50), as the list of those that differ from their reset contents. -/
abbrev Memory := List Host.Cell

/-- What an address with no entry reads as: its reset contents (10_state R46), which are glyph byte `a % 5` of
glyph `a / 5` in [0x000, 0x050) and 0x00 elsewhere (the spec's decision D14; log 7). -/
def Memory.unlisted (font : Font) (a : Nat) : Byte :=
  if h : a < 80 then (font[a / 5]'(by omega))[a % 5]'(by omega) else 0

/-- The byte at an address below 4096. -/
def Memory.read (font : Font) (m : Memory) (a : Nat) : Byte :=
  match m with
  | [] => Memory.unlisted font a
  | (k, b) :: rest => if k = a then b else Memory.read font rest a

/-- The list without an entry for `a`. -/
def Memory.erase (m : Memory) (a : Nat) : Memory := m.filter (fun c => c.1 != a)

/-- The list with an entry put before the first higher address. -/
def Memory.insert (a : Nat) (b : Byte) : Memory → Memory
  | [] => [(a, b)]
  | c :: rest => if a < c.1 then (a, b) :: c :: rest else c :: Memory.insert a b rest

/-- Write one byte: a byte equal to the reset contents leaves no entry. -/
def Memory.write (font : Font) (m : Memory) (a : Nat) (b : Byte) : Memory :=
  if b = Memory.unlisted font a then m.erase a else (m.erase a).insert a b

/-- The canonical form. -/
abbrev Memory.wf (font : Font) (m : Memory) : Prop :=
  m.Pairwise (fun c d => c.1 < d.1) ∧ ∀ c ∈ m, c.1 < 4096 ∧ c.2 ≠ Memory.unlisted font c.1

end Sys2Proof.Machine
end

