-- ==== Sys2Proof/Machine/ResetValues.lean ====
section
/-! DEFINITION. The values reset puts into the machine that are more than zero: RESET_PC and the defaults of the
three parameters (00_scope R7, R8; 10_state R45 to R47). -/

namespace Sys2Proof.Machine

/-- RESET_PC, which is also PROG_BASE, where the image is copied (R7, R45, R281; the spec's decision D13, log 6). -/
def resetPc : Addr := 0x200

/-- PROG_BASE (R7, R283). -/
def progBase : Nat := 0x200

/-- PROG_MAX: the longest image, 4096 − 0x200 bytes (R7, R283). -/
def progMax : Nat := 3584

/-- The default of FONT, one row a glyph (R47: general knowledge, not in the source; log 4, PRESUMED). -/
def defaultFont : Font := #v[
  #v[0xF0, 0x90, 0x90, 0x90, 0xF0],
  #v[0x20, 0x60, 0x20, 0x20, 0x70],
  #v[0xF0, 0x10, 0xF0, 0x80, 0xF0],
  #v[0xF0, 0x10, 0xF0, 0x10, 0xF0],
  #v[0x90, 0x90, 0xF0, 0x10, 0x10],
  #v[0xF0, 0x80, 0xF0, 0x10, 0xF0],
  #v[0xF0, 0x80, 0xF0, 0x90, 0xF0],
  #v[0xF0, 0x10, 0x20, 0x40, 0x40],
  #v[0xF0, 0x90, 0xF0, 0x90, 0xF0],
  #v[0xF0, 0x90, 0xF0, 0x10, 0xF0],
  #v[0xF0, 0x90, 0xF0, 0x90, 0x90],
  #v[0xE0, 0x90, 0xE0, 0x90, 0xE0],
  #v[0xF0, 0x80, 0x80, 0x80, 0xF0],
  #v[0xE0, 0x90, 0x90, 0x90, 0xE0],
  #v[0xF0, 0x80, 0xF0, 0x80, 0xF0],
  #v[0xF0, 0x80, 0xF0, 0x80, 0x80]]

/-- The defaults of the three parameters (R8; log 3, log 4). -/
def defaultParams : Params := ⟨defaultFont, .level, .flagLast⟩

end Sys2Proof.Machine
end

