-- ==== Sys2Proof/Machine/State.lean ====
section
/-! DEFINITION. The state of the core (10_state R20), as plain data, and the state after reset (R45, R46). -/

namespace Sys2Proof.Machine

/-- The codes of the `fault` register (R33; 60_exceptions R251). Taking one is a NEXT state of the machine. -/
inductive FaultCode where
  /-- 0: the core is not halted. -/
  | none
  /-- 1: a 2NNN found `sp = 16` (R254). -/
  | callStackOverflow
  /-- 2: a 00EE found `sp = 0` (R255). -/
  | callStackUnderflow
  /-- 3: an EX9E or EXA1 found `V[x] > 15` (R256). -/
  | keyIndexOutOfRange
deriving DecidableEq, Repr

/-- The framebuffer: 32 rows, row 0 at the top, of 64 pixels, column 0 at the left (R37). -/
abbrev Framebuffer := Vector (Vector Bool 64) 32

/-- The state. The first fourteen fields are R20's list, which is complete; the last four are the model's own:
the parameters (log 3) and the input ports (log 1, log 2). -/
structure State where
  /-- `mem` (R36, R50). -/
  mem     : Memory
  /-- `V[0..15]` (R22). -/
  V       : Vector Byte 16
  /-- The index register (R27). -/
  I       : Addr
  /-- The program counter (R25). -/
  pc      : Addr
  /-- `stack[0..15]` (R34). -/
  stack   : Vector Addr 16
  /-- The stack pointer, an integer 0..16 (R28; log 23). -/
  sp      : Fin 17
  /-- The delay timer (R29). -/
  DT      : Byte
  /-- The sound timer (R30). -/
  ST      : Byte
  /-- `fb[r][c]` (R37). -/
  fb      : Framebuffer
  /-- The stored key snapshot; bit k is key k (R38, R40). -/
  keys    : BitVec 16
  /-- The "awaiting key" flag (R31). -/
  waiting : Bool
  /-- The key-wait destination register (R31). -/
  waitReg : Reg
  /-- The framebuffer-changed flag of the current cycle (R32). -/
  dirty   : Bool
  /-- The fault code (R33). -/
  fault   : FaultCode
  /-- FONT, KEYWAIT_TRIGGER, VF_ORDER (R8). No step changes it. -/
  params  : Params
  /-- The port `rnd_in` as sampled in this cycle (R41). -/
  rndIn   : Byte
  /-- The port values lined up for the coming cycles, the next cycle's first (R40, R41). -/
  inputs  : List Input
  /-- How many cycles have sampled the ports: the index of the free draws. -/
  drawn   : Nat
deriving DecidableEq, Repr

/-- Why the machine could stop with a fault: there is no such reason. The spec's three faults are NEXT states
(`FaultCode`; R252, R253), and no other condition stops the core (60_exceptions R250; log 14). -/
inductive Fault
deriving DecidableEq, Repr

/-- Why the machine could answer with no state. -/
inductive Refusal where
  /-- Raised by `exec` for an instruction with no meaning yet; here every instruction has one, so nothing raises
  it. Safe. -/
  | notModelled (mnemonic : String)
  /-- Raised by `resetWith` for an image over 3584 bytes: the reset writes nothing and the core is not started
  (70_reset_and_hazards R284; the spec's decision D27; log 15). Safe: no state follows. -/
  | programTooLarge
deriving DecidableEq, Repr

/-- The state right after reset with an empty image and the default parameters (R45, R46, R282). -/
def State.reset : State where
  mem     := []
  V       := Vector.replicate 16 0
  I       := 0
  pc      := resetPc
  stack   := Vector.replicate 16 0
  sp      := 0
  DT      := 0
  ST      := 0
  fb      := Vector.replicate 32 (Vector.replicate 64 false)
  keys    := 0
  waiting := false
  waitReg := 0
  dirty   := false
  fault   := .none
  params  := defaultParams
  rndIn   := 0
  inputs  := []
  drawn   := 0

end Sys2Proof.Machine
end

