-- ==== Sys2Proof/Machine/Ops.lean ====
section
/-! DEFINITION. The named operations over the state: registers (10_state), memory (20_memory R52), the call stack
(R34), the framebuffer (R37), and taking a fault (60_exceptions R252). The core has no return from a fault (R260). -/

namespace Sys2Proof.Machine

/-- What a meaning answers. -/
abbrev Answer := Host.Outcome State Fault Refusal

/-- `V[r]` read (R11, R22). -/
def State.reg (s : State) (r : Reg) : Byte := s.V[r.val]

/-- `V[r] <- b` (R11, R22). -/
def State.setReg (s : State) (r : Reg) (b : Byte) : State := { s with V := s.V.set r.val b r.isLt }

/-- `pc <- a` (R25). -/
def State.setPc (s : State) (a : Addr) : State := { s with pc := a }

/-- `pc <- (pc + 2) mod 4096` (R25; D3, log 9). -/
def State.advance (s : State) : State := s.setPc (s.pc + 2)

/-- `I <- a` (R27). -/
def State.setI (s : State) (a : Addr) : State := { s with I := a }

/-- `DT <- b` (R29). -/
def State.setDT (s : State) (b : Byte) : State := { s with DT := b }

/-- `ST <- b` (R30). -/
def State.setST (s : State) (b : Byte) : State := { s with ST := b }

/-- `MemRead(e, 1) = mem[e mod 4096]` (R52; D2, log 8). -/
def State.memRead (s : State) (e : Nat) : Byte := Memory.read s.params.font s.mem (e % 4096)

/-- `MemWrite(e, 1, b) : mem[e mod 4096] <- b` (R52; D2, log 8; no protection, D23, log 24). -/
def State.memWrite (s : State) (e : Nat) (b : Byte) : State :=
  { s with mem := Memory.write s.params.font s.mem (e % 4096) b }

/-- `Fetch(pc)`: two bytes, big-endian; the second address wraps (R54, R103). -/
def State.fetch (s : State) : Word := wordOf (s.memRead s.pc.toNat) (s.memRead (s.pc.toNat + 1))

/-- `stack[sp] <- a; sp <- sp + 1`, for a stack that is not full (R34, R152). -/
def State.pushStack (s : State) (a : Addr) (h : s.sp.val < 16) : State :=
  { s with stack := s.stack.set s.sp.val a h, sp := ⟨s.sp.val + 1, by omega⟩ }

/-- `stack[sp - 1]`, for a stack that is not empty (R34, R150). -/
def State.stackTop (s : State) (h : 0 < s.sp.val) : Addr := s.stack[s.sp.val - 1]'(by omega)

/-- `sp <- sp - 1`; the entry is not cleared (R34; D17, log 25). -/
def State.dropStack (s : State) (_h : 0 < s.sp.val) : State :=
  { s with sp := ⟨s.sp.val - 1, by omega⟩ }

/-- `fb[r][c]` (R37). -/
def Framebuffer.pixel (fb : Framebuffer) (r : Fin 32) (c : Fin 64) : Bool := fb[r.val][c.val]

/-- `fb[r][c] <- fb[r][c] ^ 1` (R211). -/
def Framebuffer.flip (fb : Framebuffer) (r : Fin 32) (c : Fin 64) : Framebuffer :=
  fb.set r.val (fb[r.val].set c.val (!Framebuffer.pixel fb r c) c.isLt) r.isLt

/-- Every pixel 0 (R210). -/
def Framebuffer.blank : Framebuffer := Vector.replicate 32 (Vector.replicate 64 false)

/-- `fb <- g; dirty <- 1` (R210, R211). -/
def State.paint (s : State) (g : Framebuffer) : State := { s with fb := g, dirty := true }

/-- `waiting <- 1; wait_reg <- x` (R182). -/
def State.enterWait (s : State) (x : Reg) : State := { s with waiting := true, waitReg := x }

/-- Key k of the stored snapshot (R38, R40). -/
def State.keyDown (s : State) (k : Fin 16) : Bool := s.keys.getLsbD k.val

/-- Taking a fault: the code is recorded and nothing else is written; `pc` still addresses the instruction
(R107, R252; D8, log 12). The halt that follows is the cycle's (R101). -/
def takeFault (c : FaultCode) (s : State) : Answer := .next { s with fault := c }

end Sys2Proof.Machine
end

