-- ==== Sys2Proof/Machine/Flags.lean ====
section
/-! DEFINITION. The flag computations: what VF receives (10_state R23; 41_alu R121, R128 to R132, R144; 43_fx_memory
R185), and the order of the result and the flag. -/

namespace Sys2Proof.Machine

/-- `bool(c)` as a register value (R10). -/
def flagByte (c : Bool) : Byte := if c then 1 else 0

/-- VF, the register the flags go to (R11, R23). -/
abbrev vf : Reg := 15

/-- `V[15] <- bool(c)`. -/
def State.setVF (s : State) (c : Bool) : State := s.setReg vf (flagByte c)

/-- The carry of 8XY4: the exact sum exceeds 255 (R128). -/
def carryFlag (a b : Byte) : Bool := 255 < a.toNat + b.toNat

/-- The flag of 8XY5 and 8XY7: strictly greater, unsigned (R129, R131, R142). -/
def greaterFlag (a b : Byte) : Bool := b.toNat < a.toNat

/-- The bit 8XY6 shifts out: bit 0 (R130). -/
def lowBit (a : Byte) : Bool := a.getLsbD 0

/-- The bit 8XYE shifts out: bit 7 (R132). -/
def highBit (a : Byte) : Bool := a.getLsbD 7

/-- The flag of FX1E, on the full sum (R185; D12, log 18). -/
def indexFlag (sum : Nat) : Bool := 0x0F00 < sum

/-- The four instructions whose result depends on VF_ORDER (R121; D11, log 3). FLAG_LAST latches both operands,
writes the result, then VF. AS_LISTED writes VF first, and the result then reads the registers again. -/
def State.resultAndFlag (s : State) (x y : Reg) (result : Byte → Byte → Byte) (flag : Byte → Byte → Bool) : State :=
  match s.params.vfOrder with
  | .flagLast => (s.setReg x (result (s.reg x) (s.reg y))).setVF (flag (s.reg x) (s.reg y))
  | .asListed =>
    let t := s.setVF (flag (s.reg x) (s.reg y))
    t.setReg x (result (t.reg x) (t.reg y))

end Sys2Proof.Machine
end

