-- ==== Sys2Proof/Machine/Operands.lean ====
section
/-! DEFINITION. The operand forms: skip targets, the indexed jump target, key indices, index arithmetic, decimal
digits, and the register block (30_encoding R73; 42_control_flow R157 to R161; 43_fx_memory). -/

namespace Sys2Proof.Machine

/-- A skip: `pc + 4` when the condition holds, else `pc + 2`, modulo 4096 (R160, R161; D3, log 9). -/
def State.skipIf (s : State) (c : Bool) : State := s.setPc (if c then s.pc + 4 else s.pc + 2)

/-- `(V[0] + nnn) mod 4096` (R157; D3, log 9). -/
def State.indexedTarget (s : State) (nnn : Addr) : Addr := BitVec.ofNat 12 ((s.reg 0).toNat + nnn.toNat)

/-- `V[x]` as a key index, when it is one of 0..15 (R158, R159, R256). -/
def State.keyIndex (s : State) (x : Reg) : Option (Fin 16) :=
  if h : (s.reg x).toNat < 16 then some ⟨(s.reg x).toNat, h⟩ else none

/-- The full sum `I + V[x]`, 13 bits (R185; D12, log 18). -/
def State.indexSum (s : State) (x : Reg) : Nat := s.I.toNat + (s.reg x).toNat

/-- `V[x] * 5`, not masked (R186). -/
def glyphAddress (v : Byte) : Addr := BitVec.ofNat 12 (v.toNat * 5)

/-- `v / 100` (R187). -/
def hundreds (v : Byte) : Byte := BitVec.ofNat 8 (v.toNat / 100)

/-- `(v / 10) mod 10` (R187). -/
def tens (v : Byte) : Byte := BitVec.ofNat 8 (v.toNat / 10 % 10)

/-- `v mod 10` (R187). -/
def ones (v : Byte) : Byte := BitVec.ofNat 8 (v.toNat % 10)

/-- The register block V0..VX, in increasing order (R73, R189). -/
def blockRegs (x : Reg) : List Reg := (List.finRange 16).filter (· ≤ x)

/-- Store the registers of a list, `V[i]` to `base + i` (R190). -/
def State.storeRegs (s : State) (base : Nat) (rs : List Reg) : State :=
  rs.foldl (fun t i => t.memWrite (base + i.val) (t.reg i)) s

/-- Load the registers of a list, `V[i]` from `base + i` (R191). -/
def State.loadRegs (s : State) (base : Nat) (rs : List Reg) : State :=
  rs.foldl (fun t i => t.setReg i (t.memRead (base + i.val))) s

end Sys2Proof.Machine
end

