-- ==== Sys2Proof/Machine/Alu.lean ====
section
/-! DEFINITION. The arithmetic and logic instructions: 6XKK, 7XKK, 8XY_, CXKK (41_alu.md). -/

namespace Sys2Proof.Machine

/-- 6XKK (R122). -/
def execLdVxKk (x : Reg) (kk : Byte) (s : State) : Answer := .next (s.setReg x kk).advance

/-- 7XKK: wrapping, no flag (R123). -/
def execAddVxKk (x : Reg) (kk : Byte) (s : State) : Answer :=
  .next (s.setReg x (BitVec.ofNat 8 ((s.reg x).toNat + kk.toNat))).advance

/-- 8XY0 (R124). -/
def execLdVxVy (x y : Reg) (s : State) : Answer := .next (s.setReg x (s.reg y)).advance

/-- 8XY1: VF is not reset (R125). -/
def execOr (x y : Reg) (s : State) : Answer := .next (s.setReg x (s.reg x ||| s.reg y)).advance

/-- 8XY2 (R126). -/
def execAnd (x y : Reg) (s : State) : Answer := .next (s.setReg x (s.reg x &&& s.reg y)).advance

/-- 8XY3 (R127). -/
def execXor (x y : Reg) (s : State) : Answer := .next (s.setReg x (s.reg x ^^^ s.reg y)).advance

/-- 8XY4: the sum, then the carry, under both values of VF_ORDER (R128). -/
def execAddVxVy (x y : Reg) (s : State) : Answer :=
  let vx := s.reg x
  let vy := s.reg y
  .next ((s.setReg x (BitVec.ofNat 8 (vx.toNat + vy.toNat))).setVF (carryFlag vx vy)).advance

/-- 8XY5: `VX - VY` modulo 256, VF = VX > VY (R129). -/
def execSub (x y : Reg) (s : State) : Answer :=
  .next (s.resultAndFlag x y (fun vx vy => vx - vy) (fun vx vy => greaterFlag vx vy)).advance

/-- 8XY6: `VX >> 1`, VF = the bit shifted out; VY is not read (R130). -/
def execShr (x _y : Reg) (s : State) : Answer :=
  .next (s.resultAndFlag x x (fun vx _ => vx >>> 1) (fun vx _ => lowBit vx)).advance

/-- 8XY7: `VY - VX` modulo 256, VF = VY > VX (R131). -/
def execSubn (x y : Reg) (s : State) : Answer :=
  .next (s.resultAndFlag x y (fun vx vy => vy - vx) (fun vx vy => greaterFlag vy vx)).advance

/-- 8XYE: `VX << 1`, low 8 bits kept, VF = the bit shifted out; VY is not read (R132). -/
def execShl (x _y : Reg) (s : State) : Answer :=
  .next (s.resultAndFlag x x (fun vx _ => vx <<< 1) (fun vx _ => highBit vx)).advance

/-- CXKK: the random byte of this cycle, masked (R141; D16, log 1). -/
def execRnd (x : Reg) (kk : Byte) (s : State) : Answer := .next (s.setReg x (s.rndIn &&& kk)).advance

end Sys2Proof.Machine
end

