-- ==== Sys2Proof/Machine/Control.lean ====
section
/-! DEFINITION. The control-flow instructions: return, jumps, call, skips (42_control_flow.md), and the unmapped
no-op (40_cycle_and_dispatch R106). -/

namespace Sys2Proof.Machine

/-- 00EE: underflow at `sp = 0`, else pop (R150, R255; D7, D17). -/
def execRet (s : State) : Answer :=
  if h : 0 < s.sp.val then .next ((s.dropStack h).setPc (s.stackTop h))
  else takeFault .callStackUnderflow s

/-- 1NNN (R151). -/
def execJp (nnn : Addr) (s : State) : Answer := .next (s.setPc nnn)

/-- 2NNN: overflow at `sp = 16`, else push the next instruction's address and jump (R152, R254; D3, D6). -/
def execCall (nnn : Addr) (s : State) : Answer :=
  if h : s.sp.val < 16 then .next ((s.pushStack (s.pc + 2) h).setPc nnn)
  else takeFault .callStackOverflow s

/-- 3XKK (R153). -/
def execSeVxKk (x : Reg) (kk : Byte) (s : State) : Answer := .next (s.skipIf (s.reg x == kk))

/-- 4XKK (R154). -/
def execSneVxKk (x : Reg) (kk : Byte) (s : State) : Answer := .next (s.skipIf (s.reg x != kk))

/-- 5XY0 (R155). -/
def execSeVxVy (x y : Reg) (s : State) : Answer := .next (s.skipIf (s.reg x == s.reg y))

/-- 9XY0 (R156). -/
def execSneVxVy (x y : Reg) (s : State) : Answer := .next (s.skipIf (s.reg x != s.reg y))

/-- BNNN: always V0 (R157). -/
def execJpV0Nnn (nnn : Addr) (s : State) : Answer := .next (s.setPc (s.indexedTarget nnn))

/-- EX9E (R158, R256; D9). -/
def execSkp (x : Reg) (s : State) : Answer :=
  match s.keyIndex x with
  | some k => .next (s.skipIf (s.keyDown k))
  | none => takeFault .keyIndexOutOfRange s

/-- EXA1 (R159, R256; D9). -/
def execSknp (x : Reg) (s : State) : Answer :=
  match s.keyIndex x with
  | some k => .next (s.skipIf (!s.keyDown k))
  | none => takeFault .keyIndexOutOfRange s

/-- Every unmapped word: `pc + 2`, nothing else (R76, R106). -/
def execUnmapped (_w : Word) (s : State) : Answer := .next s.advance

end Sys2Proof.Machine
end

