-- ==== Sys2Proof/Machine/Fx.lean ====
section
/-! DEFINITION. The index, timer, BCD and register-block instructions: ANNN, FX__ (43_fx_memory.md). -/

namespace Sys2Proof.Machine

/-- ANNN (R180). -/
def execLdINnn (nnn : Addr) (s : State) : Answer := .next (s.setI nnn).advance

/-- FX07: DT as this cycle has already counted it (R181). -/
def execLdVxDt (x : Reg) (s : State) : Answer := .next (s.setReg x s.DT).advance

/-- FX0A: enter the wait; VX is written when it resolves; pc advances here (R182; D31, log 21). -/
def execLdVxK (x : Reg) (s : State) : Answer := .next (s.enterWait x).advance

/-- FX15 (R183). -/
def execLdDtVx (x : Reg) (s : State) : Answer := .next (s.setDT (s.reg x)).advance

/-- FX18 (R184). -/
def execLdStVx (x : Reg) (s : State) : Answer := .next (s.setST (s.reg x)).advance

/-- FX1E: I takes the sum modulo 4096, VF the flag of the full sum (R185; D12, log 18). -/
def execAddIVx (x : Reg) (s : State) : Answer :=
  let sum := s.indexSum x
  .next ((s.setI (BitVec.ofNat 12 sum)).setVF (indexFlag sum)).advance

/-- FX29 (R186). -/
def execLdFVx (x : Reg) (s : State) : Answer := .next (s.setI (glyphAddress (s.reg x))).advance

/-- FX33: three digits, most significant first (R187, R188). -/
def execLdBVx (x : Reg) (s : State) : Answer :=
  let vx := s.reg x
  let base := s.I.toNat
  .next (((s.memWrite base (hundreds vx)).memWrite (base + 1) (tens vx)).memWrite (base + 2) (ones vx)).advance

/-- FX55: V0..VX to memory, I unchanged (R189, R190). -/
def execLdMemVx (x : Reg) (s : State) : Answer := .next (s.storeRegs s.I.toNat (blockRegs x)).advance

/-- FX65: V0..VX from memory, I unchanged (R189, R191). -/
def execLdVxMem (x : Reg) (s : State) : Answer := .next (s.loadRegs s.I.toNat (blockRegs x)).advance

end Sys2Proof.Machine
end

