-- ==== Sys2Proof/Machine/Sprite.lean ====
section
/-! DEFINITION. The sprite rasterizer: 00E0 and DXYN (44_sprite.md). -/

namespace Sys2Proof.Machine

/-- What the loops of R211 carry: the framebuffer and the collision flag. -/
structure Canvas where
  fb      : Framebuffer
  collide : Bool
deriving DecidableEq, Repr

/-- One pixel of the inner loop of R211: a 1 bit flips the pixel at the wrapped position, and sets the collision
flag when the pixel was set (R213). -/
def Canvas.plot (k : Canvas) (row col : Nat) (bit : Bool) : Canvas :=
  if bit then
    let py := Fin.ofNat 32 row
    let px := Fin.ofNat 64 col
    ⟨k.fb.flip py px, k.collide || k.fb.pixel py px⟩
  else k

/-- The inner loop of R211: the 8 pixels of one sprite byte, bit 7 − c at column offset c (R212). -/
def Canvas.plotRow (k : Canvas) (row col : Nat) (b : Byte) : Canvas :=
  (List.range 8).foldl (fun k c => k.plot row (col + c) (b.getLsbD (7 - c))) k

/-- The outer loop of R211: `n` rows, row r from the byte at `base + r`. -/
def State.plotSprite (s : State) (x0 y0 : Byte) (base n : Nat) : Canvas :=
  (List.range n).foldl (fun k r => k.plotRow (y0.toNat + r) x0.toNat (s.memRead (base + r))) ⟨s.fb, false⟩

/-- 00E0 (R210). -/
def execCls (s : State) : Answer := .next (s.paint Framebuffer.blank).advance

/-- DXYN: operands latched, pixels drawn, then VF, dirty and pc (R211 to R216; D18, D19, log 19). -/
def execDrw (x y : Reg) (n : Fin 16) (s : State) : Answer :=
  let k := s.plotSprite (s.reg x) (s.reg y) s.I.toNat n.val
  .next ((s.paint k.fb).setVF k.collide).advance

end Sys2Proof.Machine
end

