-- ==== Sys2Proof/Machine/Cycle.lean ====
section
/-! DEFINITION. The cycle (40_cycle_and_dispatch R100), the timer count (45_timers_and_keywait R230), the key wait
(R233, R234), the input ports (10_state R40, R41), and placing a word where the next fetch reads it. -/

namespace Sys2Proof.Machine

/-- The port values of the next cycle: the ones the driver has lined up, or free values where it has lined up
none (R40, R41; U11, U12; log 1). -/
def State.nextInput (s : State) : Input :=
  match s.inputs with
  | p :: _ => p
  | [] => ⟨Config.freeKeys s.drawn, Config.freeRnd s.drawn⟩

/-- The driver lines up the port values of one more cycle (R40, R41; log 1). -/
def State.supply (s : State) (p : Input) : State := { s with inputs := s.inputs ++ [p] }

/-- Steps (1) and (2) of the cycle: the snapshot is stored whole and `dirty` is cleared (R32, R38, R100); the
random byte of this cycle is sampled (R41), and this cycle's port values are used up (log 1). -/
def State.latchInput (s : State) (p : Input) : State :=
  { s with keys := p.keys, dirty := false, rndIn := p.rnd, inputs := s.inputs.tail, drawn := s.drawn + 1 }

/-- A timer counts down by one with a floor at 0 (R230). -/
def countDown (b : Byte) : Byte := if b = 0 then 0 else b - 1

/-- `TimerTick`: the two timers, each on its own test (R230). -/
def State.timerTick (s : State) : State := { s with DT := countDown s.DT, ST := countDown s.ST }

/-- The least pressed key of a snapshot (R233). -/
def leastKey (keys : BitVec 16) : Option (Fin 16) := (List.finRange 16).find? (fun k => keys.getLsbD k.val)

/-- The keys that can resolve a wait: the pressed ones under LEVEL (R233), the ones pressed now and released in the
cycle before under EDGE (R234; D10, log 3). -/
def State.qualifyingKeys (s : State) (keysPrev : BitVec 16) : BitVec 16 :=
  match s.params.trigger with
  | .level => s.keys
  | .edge => s.keys &&& ~~~keysPrev

/-- `KeyWaitResolve(keys, keys_prev)` (R233, R234): the least qualifying key goes to `V[wait_reg]`. -/
def State.keyWaitResolve (s : State) (keysPrev : BitVec 16) : State :=
  match leastKey (s.qualifyingKeys keysPrev) with
  | some k => { s.setReg s.waitReg (BitVec.ofNat 8 k.val) with waiting := false }
  | none => s

/-- The state in which the instruction of a running cycle executes: steps (1), (2) and (4) are done (R100, R105). -/
def State.ready (s : State) : State := (s.latchInput s.nextInput).timerTick

/-- The cycle (R100): a halted core changes nothing (R101); a waiting core looks at the keys and does nothing else
(R232, R235); a running core counts its timers, then fetches, decodes and executes one instruction. -/
def runCycle (s : State) : Answer :=
  if s.fault ≠ .none then .next s
  else if s.waiting then .next ((s.latchInput s.nextInput).keyWaitResolve s.keys)
  else exec (decode s.ready.fetch) s.ready

/-- The state with a word stored at `pc`, big-endian, and running, so that the next cycle fetches and executes it
(log 16). -/
def State.placeWord (s : State) (w : Word) : State :=
  { (s.memWrite s.pc.toNat (highByte w)).memWrite (s.pc.toNat + 1) (lowByte w) with waiting := false, fault := .none }

end Sys2Proof.Machine
end

