-- ==== Sys2Proof/Machine/Boot.lean ====
section
/-! DEFINITION. The reset request with its program image (10_state R42; 70_reset_and_hazards R280 to R285). -/

namespace Sys2Proof.Machine

/-- Copy a list of bytes to memory from an address on (R283). -/
def State.loadBytes (s : State) (base : Nat) : List Byte → State
  | [] => s
  | b :: rest => (s.memWrite base b).loadBytes (base + 1) rest

/-- Every item of R20 at its reset value (R45, R48). The parameters and the input streams are no state of the core
(R21) and stay (log 17). -/
def State.clear (s : State) : State :=
  { State.reset with params := s.params, inputs := s.inputs, drawn := s.drawn }

/-- The reset request: the boot order of R285, or ProgramTooLarge, which writes nothing and starts nothing (R284;
D27, log 15). -/
def resetWith (image : List Byte) (s : State) : Answer :=
  if image.length ≤ progMax then .next (s.clear.loadBytes progBase image)
  else .refused .programTooLarge

end Sys2Proof.Machine
end

