-- ==== Sys2Proof/Machine/Outputs.lean ====
section
/-! DEFINITION. The outputs, valid after each step (10_state R43, R44). -/

namespace Sys2Proof.Machine

/-- `dirty_out`: `dirty` at the end of the cycle, and 0 in a halted cycle (R43, R101, R252). -/
def State.dirtyOut (s : State) : Bool := s.dirty && s.fault = .none

/-- A pixel in the byte view: 0x01 lit, 0x00 dark (R43; D25, log 22). -/
def pixelByte (lit : Bool) : Byte := if lit then 0x01 else 0x00

/-- `fb_out`: byte `r * 64 + c` holds pixel (r, c) (R43). -/
def State.fbOut (s : State) : Vector Byte 2048 :=
  Vector.ofFn (fun i => pixelByte (s.fb.pixel ⟨i.val / 64, by omega⟩ ⟨i.val % 64, by omega⟩))

/-- `sound_out = bool(ST > 0)` (R43, R237; D26, log 22). -/
def State.soundOut (s : State) : Bool := 0 < s.ST.toNat

/-- The code numbers of R33 and R251 (D8). -/
def FaultCode.bits : FaultCode → BitVec 2
  | .none => 0
  | .callStackOverflow => 1
  | .callStackUnderflow => 2
  | .keyIndexOutOfRange => 3

/-- `fault_out` (R44). -/
def State.faultOut (s : State) : BitVec 2 := s.fault.bits

/-- `waiting_out` (R44). -/
def State.waitingOut (s : State) : Bool := s.waiting

end Sys2Proof.Machine
end

