-- ==== Sys2Proof/Safety.lean ====
section
/-! DEFINITION. The terms the claims use: the single pieces of state and their values, what the spec's tables let
each instruction write, when an instruction faults, and the invariant of the core. None of this is used by the
machine. -/

namespace Sys2Proof.Machine

/-- One piece of the architectural state of 10_state R20: a byte of memory, a register, a stack entry, a pixel, a
key. -/
inductive Part where
  | mem (a : Addr)
  | reg (r : Reg)
  | index
  | pc
  | stack (j : Fin 16)
  | sp
  | delay
  | sound
  | pixel (r : Fin 32) (c : Fin 64)
  | key (k : Fin 16)
  | waiting
  | waitReg
  | dirty
  | fault
deriving DecidableEq, Repr

/-- What a part holds, as a number (R10). -/
def State.value (s : State) : Part → Nat
  | .mem a => (s.memRead a.toNat).toNat
  | .reg r => (s.reg r).toNat
  | .index => s.I.toNat
  | .pc => s.pc.toNat
  | .stack j => s.stack[j.val].toNat
  | .sp => s.sp.val
  | .delay => s.DT.toNat
  | .sound => s.ST.toNat
  | .pixel r c => (s.fb.pixel r c).toNat
  | .key k => (s.keyDown k).toNat
  | .waiting => s.waiting.toNat
  | .waitReg => s.waitReg.val
  | .dirty => s.dirty.toNat
  | .fault => s.fault.bits.toNat

/-- The parameters and the input ports, which are no state of the core (R21), are the same. -/
def SameSurroundings (s t : State) : Prop :=
  t.params = s.params ∧ t.rndIn = s.rndIn ∧ t.inputs = s.inputs ∧ t.drawn = s.drawn

/-- Every part but the listed ones, and the parameters and ports, are as before. -/
def KeepsAllBut (writes : Part → Prop) (s t : State) : Prop :=
  (∀ p, ¬ writes p → t.value p = s.value p) ∧ SameSurroundings s t

/-- The fault an instruction raises in a state (the table of 60_exceptions R251). -/
def faultIn : Instr → State → FaultCode
  | .call _, s => if s.sp.val = 16 then .callStackOverflow else .none
  | .ret, s => if s.sp.val = 0 then .callStackUnderflow else .none
  | .skp x, s | .sknp x, s => if 15 < (s.reg x).toNat then .keyIndexOutOfRange else .none
  | .cls, _ | .jp _, _ | .seVxKk _ _, _ | .sneVxKk _ _, _ | .seVxVy _ _, _ | .ldVxKk _ _, _ | .addVxKk _ _, _
  | .ldVxVy _ _, _ | .or _ _, _ | .and _ _, _ | .xor _ _, _ | .addVxVy _ _, _ | .sub _ _, _ | .shr _ _, _
  | .subn _ _, _ | .shl _ _, _ | .sneVxVy _ _, _ | .ldINnn _, _ | .jpV0Nnn _, _ | .rnd _ _, _ | .drw _ _ _, _
  | .ldVxDt _, _ | .ldVxK _, _ | .ldDtVx _, _ | .ldStVx _, _ | .addIVx _, _ | .ldFVx _, _ | .ldBVx _, _
  | .ldMemVx _, _ | .ldVxMem _, _ | .unmapped _, _ => .none

/-- The general registers an instruction reads or writes (the table of 10_state R24). FX0A writes VX only when the
wait resolves, in a later cycle. -/
def touchesReg : Instr → Reg → Bool
  | .seVxKk x _, r | .sneVxKk x _, r | .skp x, r | .sknp x, r | .ldDtVx x, r | .ldStVx x, r | .ldFVx x, r
  | .ldBVx x, r | .ldVxKk x _, r | .rnd x _, r | .ldVxDt x, r | .addVxKk x _, r => r = x
  | .seVxVy x y, r | .sneVxVy x y, r | .ldVxVy x y, r | .or x y, r | .and x y, r | .xor x y, r => r = x || r = y
  | .addVxVy x y, r | .sub x y, r | .subn x y, r | .drw x y _, r => r = x || r = y || r = 15
  | .shr x _, r | .shl x _, r | .addIVx x, r => r = x || r = 15
  | .jpV0Nnn _, r => r = 0
  | .ldMemVx x, r | .ldVxMem x, r => r ≤ x
  | .cls, _ | .ret, _ | .jp _, _ | .call _, _ | .ldINnn _, _ | .ldVxK _, _ | .unmapped _, _ => false

/-- What the fetch of a halted core still shows: the fault's condition holds and `pc` addresses the instruction that
raised it (R251). -/
def State.FaultExplained (s : State) : Prop :=
  s.fault ≠ .none → faultIn (decode s.fetch) s = s.fault

/-- The invariant of the core: memory is in canonical form; a halted core shows its cause (R251), is not waiting
(R258) and has a clear dirty flag (R101, R252); a waiting core has a clear dirty flag (R235). -/
structure State.Inv (s : State) : Prop where
  memory         : Memory.wf s.params.font s.mem
  faultExplained : s.FaultExplained
  haltedIdle     : s.fault ≠ .none → s.waiting = false ∧ s.dirty = false
  waitingClean   : s.waiting = true → s.dirty = false

/-- A sprite draw lights pixel (r, c): some row i and column offset j of the sprite fall on it, wrapped, and the
sprite's bit there is 1 (44_sprite R211 to R213). -/
def SpriteLights (s : State) (x y : Reg) (n : Fin 16) (r : Fin 32) (c : Fin 64) : Prop :=
  ∃ i < n.val, ∃ j < 8, r.val = ((s.reg y).toNat + i) % 32 ∧ c.val = ((s.reg x).toNat + j) % 64 ∧
    (s.memRead (s.I.toNat + i)).getLsbD (7 - j) = true

/-- A pressed key can resolve the wait: under EDGE only when the snapshot before had it released (R233, R234). -/
def Qualifies (s : State) (k : Fin 16) : Prop :=
  s.nextInput.keys.getLsbD k.val = true ∧ (s.params.trigger = .edge → s.keys.getLsbD k.val = false)

/-- `(pc + k) mod 4096` (R25). -/
def State.pcPlus (s : State) (k : Nat) : Nat := (s.value .pc + k) % 4096

/-- The instruction completes: `exec` answers a next state, and that state is as said. -/
def Completes (i : Instr) (s : State) (post : State → Prop) : Prop := ∃ t, exec i s = .next t ∧ post t

/-- `k` calls in a row (R162). -/
def afterCalls (nnn : Addr) : Nat → State → Answer
  | 0, s => .next s
  | k + 1, s =>
    match exec (.call nnn) s with
    | .next t => afterCalls nnn k t
    | .fault f => .fault f
    | .refused r => .refused r

/-- The instruction a running core executes in its next cycle (R103, R104). -/
def State.current (s : State) : Instr := decode s.fetch

/-- A running core: not halted and not waiting (R102, R282). -/
def State.Running (s : State) : Prop := s.fault = .none ∧ s.waiting = false

/-- A safe run ends in no fault: what a claim about a program asks of its states (R253). -/
def State.Safe (s : State) : Prop := s.fault = .none

end Sys2Proof.Machine
end

