-- ==== Sys2Proof/Certificates/Slice0/Obligations.lean ====
section
/-! DEFINITION. The statements for the provers. Values are numbers (`State.value`, R10); "a part" is one byte, register,
stack entry, pixel or key (`Part`). -/

open Sys2Proof Sys2Proof.Machine

/-! ## Encoding and decoding (30_encoding.md) -/

/-- Every well-formed instruction is read back from its word, and from its two bytes at the front of any list (R70
to R76). -/
def Obligations.DecodeInvertsEncode : Prop :=
  ∀ (i : Instr) (rest : List Byte), i.wellFormed = true →
    decode (encode i) = i ∧ decodeBytes (encodeBytes i ++ rest) = .ok (i, rest)

/-- Every word decodes to a well-formed instruction whose encoding is the word: no bit of a word is dropped (R81). -/
def Obligations.EncodeInvertsDecode : Prop :=
  ∀ w : Word, (decode w).wellFormed = true ∧ encode (decode w) = w

/-- The two-level dispatch (R74) decodes every word as the opcode map's mask and match say (R75); a word no row
selects is unmapped; rows that select the same word are one row. -/
def Obligations.DispatchFollowsOpcodeMap : Prop :=
  ∀ w : Word,
    (∀ row ∈ opcodeMap, row.selects w = true → decode w = row.build w) ∧
    ((∀ row ∈ opcodeMap, row.selects w = false) → decode w = .unmapped w) ∧
    (∀ row ∈ opcodeMap, ∀ row' ∈ opcodeMap, row.selects w = true → row'.selects w = true →
      row.mask = row'.mask ∧ row.value = row'.value)

/-- The words that decode to the unmapped no-op are those of the table of R76, and they carry their word. -/
def Obligations.UnmappedWordsAreTheTable : Prop :=
  ∀ w : Word, (decode w = .unmapped w ↔ Word.isUnmapped w = true) ∧ ∀ w', decode w = .unmapped w' → w' = w

/-- Sample words of 95_test_vectors section 2 and the rules' examples, one or more for each of the sixteen top nibbles
(R74), and the unmapped words beside them. -/
def Obligations.SampleWordsDecode : Prop :=
  decode 0x00E0 = .cls ∧ decode 0x00EE = .ret ∧ decode 0x01E0 = .unmapped 0x01E0 ∧ decode 0x1204 = .jp 0x204 ∧
  decode 0x2210 = .call 0x210 ∧ decode 0x3112 = .seVxKk 1 0x12 ∧ decode 0x4113 = .sneVxKk 1 0x13 ∧
  decode 0x5120 = .seVxVy 1 2 ∧ decode 0x5121 = .unmapped 0x5121 ∧ decode 0x6A7B = .ldVxKk 0xA 0x7B ∧
  decode 0x7311 = .addVxKk 3 0x11 ∧ decode 0x8231 = .or 2 3 ∧ decode 0x800F = .unmapped 0x800F ∧
  decode 0x9120 = .sneVxVy 1 2 ∧ decode 0x9121 = .unmapped 0x9121 ∧ decode 0xA300 = .ldINnn 0x300 ∧
  decode 0xB123 = .jpV0Nnn 0x123 ∧ decode 0xC30F = .rnd 3 0x0F ∧ decode 0xD015 = .drw 0 1 5 ∧
  decode 0xE09E = .skp 0 ∧ decode 0xE09F = .unmapped 0xE09F ∧ decode 0xF165 = .ldVxMem 1 ∧
  decode 0xF000 = .unmapped 0xF000

/-! ## Memory (20_memory.md) -/

/-- Fetch is big-endian: the byte at `pc` is the high byte, the byte at `pc + 1` modulo 4096 the low one. The byte
order is the spec's decision D5 (log 11) and the wrap its decision D2 (log 8). -/
def Obligations.FetchIsBigEndian : Prop :=
  ∀ s : State, s.fetch.toNat = 256 * s.value (.mem s.pc) + s.value (.mem (s.pc + 1))

/-- Memories in canonical form that read the same everywhere are the same data. The form is the model's own
(log 7). -/
def Obligations.CanonicalMemoriesAreDetermined : Prop :=
  ∀ (font : Font) (m m' : Memory), Memory.wf font m → Memory.wf font m' →
    (∀ a < 4096, Memory.read font m a = Memory.read font m' a) → m = m'

/-- A block stored by FX55 is what the next fetch reads when `pc` points into it (R60; immediate visibility is the
spec's decision D24, log 24). -/
def Obligations.StoredBlockIsFetched : Prop :=
  ∀ (s : State) (x i j : Reg), j.val = i.val + 1 → j ≤ x → s.pcPlus 2 = (s.value .index + i.val) % 4096 →
    Completes (.ldMemVx x) s fun t => t.fetch.toNat = 256 * s.value (.reg i) + s.value (.reg j)

/-! ## Arithmetic and logic (41_alu.md)

`pcPlus k` is the `(pc + k) mod 4096` of the rules' pseudocode; 10_state R25 marks the wrap as the spec's decision D3
(log 9). -/

/-- 6XKK and 8XY0: VX becomes the byte, or VY; every other part but `pc` is kept. -/
def Obligations.LoadsWriteTheirRegister : Prop :=
  ∀ (s : State) (x y : Reg) (kk : Byte),
    Completes (.ldVxKk x kk) s (fun t => t.value (.reg x) = kk.toNat ∧ t.value .pc = s.pcPlus 2 ∧
      KeepsAllBut (fun p => p = .reg x ∨ p = .pc) s t) ∧
    Completes (.ldVxVy x y) s (fun t => t.value (.reg x) = s.value (.reg y) ∧ t.value .pc = s.pcPlus 2 ∧
      KeepsAllBut (fun p => p = .reg x ∨ p = .pc) s t)

/-- 7XKK: the sum modulo 256, and no flag: VF is kept unless it is VX. -/
def Obligations.AddImmediateWrapsWithoutFlag : Prop :=
  ∀ (s : State) (x : Reg) (kk : Byte),
    Completes (.addVxKk x kk) s fun t => t.value (.reg x) = (s.value (.reg x) + kk.toNat) % 256 ∧
      t.value .pc = s.pcPlus 2 ∧ KeepsAllBut (fun p => p = .reg x ∨ p = .pc) s t

/-- 8XY1, 8XY2, 8XY3: each bit of VX becomes the OR, AND, XOR of the operands' bits; VF is not reset. -/
def Obligations.LogicWorksBitByBit : Prop :=
  ∀ (s : State) (x y : Reg),
    Completes (.or x y) s (fun t =>
      (∀ k, (t.reg x).getLsbD k = ((s.reg x).getLsbD k || (s.reg y).getLsbD k)) ∧
      t.value .pc = s.pcPlus 2 ∧ KeepsAllBut (fun p => p = .reg x ∨ p = .pc) s t) ∧
    Completes (.and x y) s (fun t =>
      (∀ k, (t.reg x).getLsbD k = ((s.reg x).getLsbD k && (s.reg y).getLsbD k)) ∧
      t.value .pc = s.pcPlus 2 ∧ KeepsAllBut (fun p => p = .reg x ∨ p = .pc) s t) ∧
    Completes (.xor x y) s (fun t =>
      (∀ k, (t.reg x).getLsbD k = ((s.reg x).getLsbD k ^^ (s.reg y).getLsbD k)) ∧
      t.value .pc = s.pcPlus 2 ∧ KeepsAllBut (fun p => p = .reg x ∨ p = .pc) s t)

/-- 8XY4: VX becomes the sum modulo 256 (lost when x = 15), VF the carry, under either VF_ORDER. -/
def Obligations.AddSetsCarry : Prop :=
  ∀ (s : State) (x y : Reg),
    Completes (.addVxVy x y) s fun t =>
      (x ≠ 15 → t.value (.reg x) = (s.value (.reg x) + s.value (.reg y)) % 256) ∧
      t.value (.reg 15) = (if 255 < s.value (.reg x) + s.value (.reg y) then 1 else 0) ∧
      t.value .pc = s.pcPlus 2 ∧ KeepsAllBut (fun p => p = .reg x ∨ p = .reg 15 ∨ p = .pc) s t

/-- 8XY5: VX − VY modulo 256, VF = (VX > VY), strictly. FLAG_LAST keeps the flag in VF; AS_LISTED writes the flag
first and subtracts after, so that VF as an operand is the flag (R121). -/
def Obligations.SubtractSetsGreater : Prop :=
  ∀ (s : State) (x y : Reg),
    let flag := (if s.value (.reg y) < s.value (.reg x) then 1 else 0)
    Completes (.sub x y) s fun t =>
      (s.params.vfOrder = .flagLast → t.value (.reg 15) = flag ∧
        (x ≠ 15 → t.value (.reg x) = (s.value (.reg x) + 256 - s.value (.reg y)) % 256)) ∧
      (s.params.vfOrder = .asListed → (x ≠ 15 → t.value (.reg 15) = flag) ∧
        t.value (.reg x) = ((if x = 15 then flag else s.value (.reg x)) + 256 -
          (if y = 15 then flag else s.value (.reg y))) % 256) ∧
      t.value .pc = s.pcPlus 2 ∧ KeepsAllBut (fun p => p = .reg x ∨ p = .reg 15 ∨ p = .pc) s t

/-- 8XY7: VY − VX modulo 256, VF = (VY > VX), strictly; the two orders as for 8XY5. -/
def Obligations.ReverseSubtractSetsGreater : Prop :=
  ∀ (s : State) (x y : Reg),
    let flag := (if s.value (.reg x) < s.value (.reg y) then 1 else 0)
    Completes (.subn x y) s fun t =>
      (s.params.vfOrder = .flagLast → t.value (.reg 15) = flag ∧
        (x ≠ 15 → t.value (.reg x) = (s.value (.reg y) + 256 - s.value (.reg x)) % 256)) ∧
      (s.params.vfOrder = .asListed → (x ≠ 15 → t.value (.reg 15) = flag) ∧
        t.value (.reg x) = ((if y = 15 then flag else s.value (.reg y)) + 256 -
          (if x = 15 then flag else s.value (.reg x))) % 256) ∧
      t.value .pc = s.pcPlus 2 ∧ KeepsAllBut (fun p => p = .reg x ∨ p = .reg 15 ∨ p = .pc) s t

/-- 8XY6: VX halved, VF = its old bit 0; the register named by y is kept. -/
def Obligations.ShiftRightSetsLowBit : Prop :=
  ∀ (s : State) (x y : Reg),
    let flag := s.value (.reg x) % 2
    Completes (.shr x y) s fun t =>
      (s.params.vfOrder = .flagLast → t.value (.reg 15) = flag ∧
        (x ≠ 15 → t.value (.reg x) = s.value (.reg x) / 2)) ∧
      (s.params.vfOrder = .asListed → (x ≠ 15 → t.value (.reg 15) = flag) ∧
        t.value (.reg x) = (if x = 15 then flag else s.value (.reg x)) / 2) ∧
      t.value .pc = s.pcPlus 2 ∧ KeepsAllBut (fun p => p = .reg x ∨ p = .reg 15 ∨ p = .pc) s t

/-- 8XYE: VX doubled modulo 256, VF = its old bit 7; the register named by y is kept. -/
def Obligations.ShiftLeftSetsHighBit : Prop :=
  ∀ (s : State) (x y : Reg),
    let flag := s.value (.reg x) / 128
    Completes (.shl x y) s fun t =>
      (s.params.vfOrder = .flagLast → t.value (.reg 15) = flag ∧
        (x ≠ 15 → t.value (.reg x) = 2 * s.value (.reg x) % 256)) ∧
      (s.params.vfOrder = .asListed → (x ≠ 15 → t.value (.reg 15) = flag) ∧
        t.value (.reg x) = 2 * (if x = 15 then flag else s.value (.reg x)) % 256) ∧
      t.value .pc = s.pcPlus 2 ∧ KeepsAllBut (fun p => p = .reg x ∨ p = .reg 15 ∨ p = .pc) s t

/-- CXKK, for every value of `rnd_in`: each bit of VX is the random bit where `kk` has a 1, and 0 where it has a 0. -/
def Obligations.RandomIsMasked : Prop :=
  ∀ (s : State) (x : Reg) (kk : Byte),
    Completes (.rnd x kk) s fun t => (∀ k, (t.reg x).getLsbD k = (s.rndIn.getLsbD k && kk.getLsbD k)) ∧
      t.value .pc = s.pcPlus 2 ∧ KeepsAllBut (fun p => p = .reg x ∨ p = .pc) s t

/-- The random byte matters to CXKK alone: for every other instruction, another value of it changes nothing. -/
def Obligations.RandomByteIsReadByRndOnly : Prop :=
  ∀ (i : Instr) (s : State) (b : Byte), (∀ x kk, i ≠ .rnd x kk) →
    ∃ t, exec i s = .next t ∧ exec i { s with rndIn := b } = .next { t with rndIn := b }

/-- A register R24 does not list for an instruction is neither written (its value is kept) nor read (another value in
it changes nothing else). -/
def Obligations.UnlistedRegistersAreUntouched : Prop :=
  ∀ (i : Instr) (s : State) (r : Reg) (b : Byte), touchesReg i r = false →
    ∃ t, exec i s = .next t ∧ t.reg r = s.reg r ∧ exec i (s.setReg r b) = .next (t.setReg r b)

/-- VF_ORDER matters only to 8XY5 and 8XY7 with x = 15 or y = 15, and to 8XY6 and 8XYE with x = 15: in every other case the two values
leave the same parts. -/
def Obligations.VfOrderMattersOnlyForVf : Prop :=
  ∀ (i : Instr) (s : State),
    (∀ x y, (i = .sub x y ∨ i = .subn x y → x ≠ 15 ∧ y ≠ 15) ∧ (i = .shr x y ∨ i = .shl x y → x ≠ 15)) →
    ∃ t u, exec i { s with params := { s.params with vfOrder := .flagLast } } = .next t ∧
      exec i { s with params := { s.params with vfOrder := .asListed } } = .next u ∧
      ∀ p, t.value p = u.value p

/-! ## Control flow (42_control_flow.md) -/

/-- 1NNN goes to nnn; BNNN to V0 + nnn modulo 4096 (the wrap is the spec's decision D3, log 9). -/
def Obligations.JumpsGoToTheirTarget : Prop :=
  ∀ (s : State) (nnn : Addr),
    Completes (.jp nnn) s (fun t => t.value .pc = nnn.toNat ∧ KeepsAllBut (fun p => p = .pc) s t) ∧
    Completes (.jpV0Nnn nnn) s (fun t => t.value .pc = (s.value (.reg 0) + nnn.toNat) % 4096 ∧
      KeepsAllBut (fun p => p = .pc) s t)

/-- 2NNN with fewer than 16 entries: the next instruction's address is pushed, and control goes to nnn. -/
def Obligations.CallPushesReturnAddress : Prop :=
  ∀ (s : State) (nnn : Addr) (j : Fin 16), s.value .sp = j.val →
    Completes (.call nnn) s fun t => t.value (.stack j) = s.pcPlus 2 ∧ t.value .sp = s.value .sp + 1 ∧
      t.value .pc = nnn.toNat ∧ KeepsAllBut (fun p => p = .stack j ∨ p = .sp ∨ p = .pc) s t

/-- 00EE with at least one entry: control goes to the popped entry, which is not cleared. -/
def Obligations.ReturnPopsAddress : Prop :=
  ∀ (s : State) (j : Fin 16), s.value .sp = j.val + 1 →
    Completes .ret s fun t => t.value .pc = s.value (.stack j) ∧ t.value .sp = j.val ∧
      KeepsAllBut (fun p => p = .sp ∨ p = .pc) s t

/-- Calls nested two deep return in order: each return goes to the instruction after its call, and only the two stack
entries used, and `pc`, differ at the end. -/
def Obligations.NestedCallsReturnInOrder : Prop :=
  ∀ (s : State) (a b : Addr) (j k : Fin 16), s.value .sp = j.val → k.val = j.val + 1 →
    ∃ t₁ t₂ t₃ t₄, exec (.call a) s = .next t₁ ∧ exec (.call b) t₁ = .next t₂ ∧ exec .ret t₂ = .next t₃ ∧
      exec .ret t₃ = .next t₄ ∧ t₃.value .pc = (a.toNat + 2) % 4096 ∧ t₄.value .pc = s.pcPlus 2 ∧
      KeepsAllBut (fun p => p = .stack j ∨ p = .stack k ∨ p = .pc) s t₄

/-- From an empty stack, 16 calls in a row complete and the 17th raises CallStackOverflow, leaving 16 entries. That an
overflow is a fault is the spec's decision D6 (log 12). -/
def Obligations.SeventeenthCallOverflows : Prop :=
  ∀ (s : State) (nnn : Addr), s.value .sp = 0 →
    (∀ k ≤ 16, ∃ t, afterCalls nnn k s = .next t ∧ t.value .sp = k ∧ t.fault = s.fault) ∧
    ∃ t, afterCalls nnn 17 s = .next t ∧ t.fault = .callStackOverflow ∧ t.value .sp = 16

/-- 3XKK and 4XKK: `pc + 4` when the condition holds, else `pc + 2`, and nothing else. -/
def Obligations.ImmediateSkips : Prop :=
  ∀ (s : State) (x : Reg) (kk : Byte),
    Completes (.seVxKk x kk) s (fun t => t.value .pc = s.pcPlus (if s.value (.reg x) = kk.toNat then 4 else 2) ∧
      KeepsAllBut (fun p => p = .pc) s t) ∧
    Completes (.sneVxKk x kk) s (fun t => t.value .pc = s.pcPlus (if s.value (.reg x) ≠ kk.toNat then 4 else 2) ∧
      KeepsAllBut (fun p => p = .pc) s t)

/-- 5XY0 and 9XY0: `pc + 4` when the condition holds, else `pc + 2`, and nothing else. -/
def Obligations.RegisterSkips : Prop :=
  ∀ (s : State) (x y : Reg),
    Completes (.seVxVy x y) s (fun t =>
      t.value .pc = s.pcPlus (if s.value (.reg x) = s.value (.reg y) then 4 else 2) ∧
      KeepsAllBut (fun p => p = .pc) s t) ∧
    Completes (.sneVxVy x y) s (fun t =>
      t.value .pc = s.pcPlus (if s.value (.reg x) ≠ s.value (.reg y) then 4 else 2) ∧
      KeepsAllBut (fun p => p = .pc) s t)

/-- EX9E and EXA1 with a key index in VX: the skip tests the stored snapshot. -/
def Obligations.KeySkips : Prop :=
  ∀ (s : State) (x : Reg) (k : Fin 16), s.value (.reg x) = k.val →
    Completes (.skp x) s (fun t => t.value .pc = s.pcPlus (if s.value (.key k) = 1 then 4 else 2) ∧
      KeepsAllBut (fun p => p = .pc) s t) ∧
    Completes (.sknp x) s (fun t => t.value .pc = s.pcPlus (if s.value (.key k) = 0 then 4 else 2) ∧
      KeepsAllBut (fun p => p = .pc) s t)

/-- In a running cycle, EX9E and EXA1 see the snapshot supplied for that same cycle, not an earlier one. -/
def Obligations.KeySkipsSeeThisCyclesKeys : Prop :=
  ∀ (s : State) (x : Reg) (k : Fin 16), s.Running → s.value (.reg x) = k.val →
    (s.current = .skp x → ∃ t, step s = .next t ∧
      t.value .pc = s.pcPlus (if s.nextInput.keys.getLsbD k.val = true then 4 else 2)) ∧
    (s.current = .sknp x → ∃ t, step s = .next t ∧
      t.value .pc = s.pcPlus (if s.nextInput.keys.getLsbD k.val = false then 4 else 2))

/-- An unmapped word moves `pc` past it and does nothing else. -/
def Obligations.UnmappedOnlyAdvances : Prop :=
  ∀ (s : State) (w : Word),
    Completes (.unmapped w) s fun t => t.value .pc = s.pcPlus 2 ∧ KeepsAllBut (fun p => p = .pc) s t

/-! ## Index, timers, BCD and register block (43_fx_memory.md) -/

/-- ANNN loads nnn; FX29 loads VX * 5, not masked. -/
def Obligations.IndexLoads : Prop :=
  ∀ (s : State) (x : Reg) (nnn : Addr),
    Completes (.ldINnn nnn) s (fun t => t.value .index = nnn.toNat ∧ t.value .pc = s.pcPlus 2 ∧
      KeepsAllBut (fun p => p = .index ∨ p = .pc) s t) ∧
    Completes (.ldFVx x) s (fun t => t.value .index = s.value (.reg x) * 5 ∧ t.value .pc = s.pcPlus 2 ∧
      KeepsAllBut (fun p => p = .index ∨ p = .pc) s t)

/-- FX1E: I takes the sum modulo 4096 and VF tells whether the full sum exceeds 0x0F00. That the flag looks at the
full sum is the spec's decision D12 (log 18), the wrap its decision D2 (log 8). -/
def Obligations.AddToIndexFlagsFullSum : Prop :=
  ∀ (s : State) (x : Reg),
    Completes (.addIVx x) s fun t => t.value .index = (s.value .index + s.value (.reg x)) % 4096 ∧
      t.value (.reg 15) = (if 0x0F00 < s.value .index + s.value (.reg x) then 1 else 0) ∧ t.value .pc = s.pcPlus 2 ∧
      KeepsAllBut (fun p => p = .index ∨ p = .reg 15 ∨ p = .pc) s t

/-- FX07, FX15 and FX18 move a byte between VX and a timer. -/
def Obligations.TimerMoves : Prop :=
  ∀ (s : State) (x : Reg),
    Completes (.ldVxDt x) s (fun t => t.value (.reg x) = s.value .delay ∧ t.value .pc = s.pcPlus 2 ∧
      KeepsAllBut (fun p => p = .reg x ∨ p = .pc) s t) ∧
    Completes (.ldDtVx x) s (fun t => t.value .delay = s.value (.reg x) ∧ t.value .pc = s.pcPlus 2 ∧
      KeepsAllBut (fun p => p = .delay ∨ p = .pc) s t) ∧
    Completes (.ldStVx x) s (fun t => t.value .sound = s.value (.reg x) ∧ t.value .pc = s.pcPlus 2 ∧
      KeepsAllBut (fun p => p = .sound ∨ p = .pc) s t)

/-- FX0A: the core waits for a key for VX, which is not written yet; `pc` advances at entry, which is the spec's
decision D31 (log 21). -/
def Obligations.WaitKeyEntersWait : Prop :=
  ∀ (s : State) (x : Reg),
    Completes (.ldVxK x) s fun t => t.value .waiting = 1 ∧ t.value .waitReg = x.val ∧ t.value .pc = s.pcPlus 2 ∧
      KeepsAllBut (fun p => p = .waiting ∨ p = .waitReg ∨ p = .pc) s t

/-- FX33: the three bytes at I, I+1, I+2 (modulo 4096, the spec's decision D2, log 8) are the decimal digits of VX, most
significant first; every other byte is kept, and I is. -/
def Obligations.BcdStoresDigits : Prop :=
  ∀ (s : State) (x : Reg),
    Completes (.ldBVx x) s fun t =>
      t.value (.mem s.I) = s.value (.reg x) / 100 ∧
      t.value (.mem (s.I + 1)) = s.value (.reg x) / 10 % 10 ∧
      t.value (.mem (s.I + 2)) = s.value (.reg x) % 10 ∧ t.value .pc = s.pcPlus 2 ∧
      KeepsAllBut (fun p => p = .mem s.I ∨ p = .mem (s.I + 1) ∨ p = .mem (s.I + 2) ∨ p = .pc) s t

/-- FX55: V0..VX go to the bytes at I..I+X, modulo 4096 (the spec's decision D2, log 8); every byte outside is kept, and
so are the registers and I. -/
def Obligations.StoreBlockWritesMemory : Prop :=
  ∀ (s : State) (x : Reg),
    Completes (.ldMemVx x) s fun t =>
      (∀ i : Reg, i ≤ x → t.value (.mem (BitVec.ofNat 12 (s.I.toNat + i.val))) = s.value (.reg i)) ∧
      t.value .pc = s.pcPlus 2 ∧
      KeepsAllBut (fun p => (∃ i : Reg, i ≤ x ∧ p = .mem (BitVec.ofNat 12 (s.I.toNat + i.val))) ∨ p = .pc) s t

/-- FX65: V0..VX come from the bytes at I..I+X, modulo 4096 (the spec's decision D2, log 8); the registers above VX, all of
memory and I are kept. -/
def Obligations.LoadBlockReadsMemory : Prop :=
  ∀ (s : State) (x : Reg),
    Completes (.ldVxMem x) s fun t =>
      (∀ i : Reg, i ≤ x → t.value (.reg i) = s.value (.mem (BitVec.ofNat 12 (s.I.toNat + i.val)))) ∧
      t.value .pc = s.pcPlus 2 ∧
      KeepsAllBut (fun p => (∃ i : Reg, i ≤ x ∧ p = .reg i) ∨ p = .pc) s t

/-- FX55 and FX65 are inverse: a block loaded from where it was stored brings the stored registers back, whatever the
registers held in between. -/
def Obligations.StoredBlockIsLoadedBack : Prop :=
  ∀ (s t u : State) (x : Reg), exec (.ldMemVx x) s = .next t → u.I = s.I →
    (∀ a, u.value (.mem a) = t.value (.mem a)) →
    Completes (.ldVxMem x) u fun v => ∀ i : Reg, i ≤ x → v.value (.reg i) = s.value (.reg i)

/-! ## Sprites (44_sprite.md) -/

/-- 00E0: every pixel 0, dirty set, VF and everything else kept. -/
def Obligations.ClearBlanksTheScreen : Prop :=
  ∀ s : State, Completes .cls s fun t => (∀ r c, t.value (.pixel r c) = 0) ∧ t.value .dirty = 1 ∧
    t.value .pc = s.pcPlus 2 ∧ KeepsAllBut (fun p => (∃ r c, p = .pixel r c) ∨ p = .dirty ∨ p = .pc) s t

/-- DXYN: a pixel flips exactly when the sprite lights it, each of the sprite's bits falling on the wrapped position of
R212 and R213; VF is 1 exactly when a set pixel was flipped; memory, I and every other register are kept. That the
coordinates are latched and VF is written last is the spec's decision D19 (log 19). -/
def Obligations.DrawFlipsTheSprite : Prop :=
  ∀ (s : State) (x y : Reg) (n : Fin 16),
    Completes (.drw x y n) s fun t =>
      (∀ r c, t.fb.pixel r c ≠ s.fb.pixel r c ↔ SpriteLights s x y n r c) ∧
      (t.value (.reg 15) = 0 ∨ t.value (.reg 15) = 1) ∧
      (t.value (.reg 15) = 1 ↔ ∃ r c, SpriteLights s x y n r c ∧ s.fb.pixel r c = true) ∧
      t.value .dirty = 1 ∧ t.value .pc = s.pcPlus 2 ∧
      KeepsAllBut (fun p => (∃ r c, p = .pixel r c) ∨ p = .reg 15 ∨ p = .dirty ∨ p = .pc) s t

/-- Drawing the same sprite at the same place a second time restores the screen, and sets VF exactly when some pixel
the sprite lights was dark before both draws; on a place that was dark throughout, that is when the sprite has a 1 bit.
The second draw starts from any state with the first one's screen and with the coordinates, I and memory as they were,
which covers x = 15 and y = 15. R215's own sentence on VF leaves the prior screen out and contradicts R211 where the
sprite falls on lit pixels (log 26). -/
def Obligations.DrawTwiceRestoresTheScreen : Prop :=
  ∀ (s t u : State) (x y : Reg) (n : Fin 16), exec (.drw x y n) s = .next t → u.fb = t.fb → u.I = s.I →
    u.reg x = s.reg x → u.reg y = s.reg y → (∀ a, u.value (.mem a) = s.value (.mem a)) →
    Completes (.drw x y n) u fun v => v.fb = s.fb ∧
      (v.value (.reg 15) = 1 ↔ ∃ r c, SpriteLights s x y n r c ∧ s.fb.pixel r c = false) ∧
      ((∀ r c, SpriteLights s x y n r c → s.fb.pixel r c = false) →
        (v.value (.reg 15) = 1 ↔ ∃ i < n.val, s.memRead (s.I.toNat + i) ≠ 0))

/-! ## The cycle, the timers and the key wait (40_cycle_and_dispatch.md, 45_timers_and_keywait.md) -/

/-- When the bytes at `pc` decode to a well-formed instruction, a step of a running core is that instruction's `exec`
in the state after steps (1), (2) and (4): keys stored, dirty cleared, the ports of this cycle sampled and used up
(log 1), both timers counted. The ports of a cycle are the first ones lined up: any step of a core that is not halted,
waiting or running, stores that key snapshot, samples that random byte and leaves the later ones lined up. -/
def Obligations.StepRunsTheDecodedInstruction : Prop :=
  (∀ (s : State) (i : Instr), s.Running → i.wellFormed = true →
    decodeBytes [s.memRead s.pc.toNat, s.memRead (s.pc.toNat + 1)] = .ok (i, []) →
    step s = exec i { s with
      keys := s.nextInput.keys, dirty := false, rndIn := s.nextInput.rnd, inputs := s.inputs.tail,
      drawn := s.drawn + 1, DT := if s.DT = 0 then 0 else s.DT - 1, ST := if s.ST = 0 then 0 else s.ST - 1 }) ∧
  ∀ (s : State) (p : Input) (rest : List Input), s.fault = .none → s.inputs = p :: rest →
    s.nextInput = p ∧ ∃ t, step s = .next t ∧ t.keys = p.keys ∧ t.rndIn = p.rnd ∧ t.inputs = rest

/-- Every step answers a next state: no word, no operand and no state stops the model (R81, R250). The parameters,
which stand in State by the model's own choice (log 3), never change. -/
def Obligations.EveryStepAnswersNext : Prop := ∀ s : State, ∃ t, step s = .next t ∧ t.params = s.params

/-- A halted core stays as it is for any number of cycles, and reports a clear dirty flag. The halt is the spec's
decision D8 (log 12, log 13). -/
def Obligations.HaltedCoreNeverChanges : Prop :=
  ∀ (s : State) (n : Nat), s.fault ≠ .none → Host.Core.run Sys2Proof.core n s = .next s ∧ s.dirtyOut = false

/-- The fault conditions are those of R251's table, and a faulting instruction makes no write; an instruction whose
condition does not hold completes and leaves the fault code alone. -/
def Obligations.FaultingInstructionCommitsNothing : Prop :=
  ∀ (i : Instr) (s : State),
    (faultIn i s ≠ .none → ∃ t, exec i s = .next t ∧ t.fault = faultIn i s ∧
      KeepsAllBut (fun p => p = .fault) s t) ∧
    (faultIn i s = .none → ∃ t, exec i s = .next t ∧ t.fault = s.fault)

/-- In a cycle whose instruction faults, the key store and the timer count stand, everything else but the dirty flag
is as before, and the code is output: 1 for a call, 2 for a return, 3 for a key skip. The mechanism and the codes are the
spec's decision D8, code 3 its decision D9 (log 12). -/
def Obligations.FaultIsPrecise : Prop :=
  ∀ s : State, s.Running → faultIn s.current s ≠ .none →
    ∃ t, step s = .next t ∧ t.fault = faultIn s.current s ∧
      ((∃ nnn, s.current = .call nnn) → t.faultOut.toNat = 1) ∧ (s.current = .ret → t.faultOut.toNat = 2) ∧
      ((∃ x, s.current = .skp x ∨ s.current = .sknp x) → t.faultOut.toNat = 3) ∧ t.dirtyOut = false ∧
      t.keys = s.nextInput.keys ∧ t.value .delay = s.value .delay - 1 ∧ t.value .sound = s.value .sound - 1 ∧
      ∀ p, (∀ k, p ≠ .key k) → p ≠ .delay → p ≠ .sound → p ≠ .dirty → p ≠ .fault → t.value p = s.value p

/-- Each timer counts down by one, with a floor at 0, in every running cycle, whatever the instruction and whether it
faults, and before the instruction: FX07 reads the counted value, and FX15 and FX18 then set theirs. -/
def Obligations.TimersCountEveryRunningCycle : Prop :=
  ∀ s : State, s.Running → ∃ t, step s = .next t ∧
    (∀ x, s.current = .ldVxDt x → t.value (.reg x) = s.value .delay - 1) ∧
    (∀ x, s.current = .ldDtVx x → t.value .delay = s.value (.reg x)) ∧
    ((∀ x, s.current ≠ .ldDtVx x) → t.value .delay = s.value .delay - 1) ∧
    (∀ x, s.current = .ldStVx x → t.value .sound = s.value (.reg x)) ∧
    ((∀ x, s.current ≠ .ldStVx x) → t.value .sound = s.value .sound - 1)

/-- A waiting core stores the keys; the least qualifying key (any pressed key under LEVEL, a newly pressed one under
EDGE), if there is one, goes to the waiting register and ends the wait; nothing is fetched or counted and `pc` stays. -/
def Obligations.KeyWaitResolvesOnLeastKey : Prop :=
  ∀ s : State, s.fault = .none → s.waiting = true → ∃ t, step s = .next t ∧
    t.keys = s.nextInput.keys ∧ t.dirty = false ∧
    ((∀ k, ¬ Qualifies s k) → t.waiting = true ∧ t.reg s.waitReg = s.reg s.waitReg) ∧
    (∀ k, Qualifies s k → (∀ j < k, ¬ Qualifies s j) → t.waiting = false ∧ t.value (.reg s.waitReg) = k.val) ∧
    ∀ p, (∀ k, p ≠ .key k) → p ≠ .reg s.waitReg → p ≠ .waiting → p ≠ .dirty → t.value p = s.value p

/-- A running core starts to wait on FX0A and on nothing else, and a wait once left is over: only a qualifying key ends
it. -/
def Obligations.OnlyWaitKeyStartsTheWait : Prop :=
  ∀ s t : State, step s = .next t →
    (s.Running → (t.waiting = true ↔ ∃ x, s.current = .ldVxK x)) ∧
    (s.fault = .none → s.waiting = true → t.waiting = false → ∃ k, Qualifies s k)

/-- `dirty_out` is 1 exactly in a running cycle that executes 00E0 or DXYN. -/
def Obligations.DirtyMarksClearAndDraw : Prop :=
  ∀ s t : State, step s = .next t →
    (t.dirtyOut = true ↔ s.Running ∧ (s.current = .cls ∨ ∃ x y n, s.current = .drw x y n))

/-- A step that changes a pixel executes 00E0 or DXYN. -/
def Obligations.ScreenChangesOnlyByClearAndDraw : Prop :=
  ∀ (s t : State) (r : Fin 32) (c : Fin 64), step s = .next t → t.fb.pixel r c ≠ s.fb.pixel r c →
    s.Running ∧ (s.current = .cls ∨ ∃ x y n, s.current = .drw x y n)

/-- A step that changes I executes ANNN, FX1E or FX29. -/
def Obligations.IndexChangesOnlyByItsWriters : Prop :=
  ∀ s t : State, step s = .next t → t.I ≠ s.I →
    s.Running ∧ ((∃ nnn, s.current = .ldINnn nnn) ∨ (∃ x, s.current = .addIVx x) ∨ ∃ x, s.current = .ldFVx x)

/-- A step that changes a stack entry executes 2NNN and changes the entry `sp` points at; one that changes `sp`
executes 2NNN or 00EE. -/
def Obligations.StackChangesOnlyByCallAndReturn : Prop :=
  ∀ s t : State, step s = .next t →
    (∀ j, t.value (.stack j) ≠ s.value (.stack j) →
      s.value .sp = j.val ∧ t.value (.stack j) = s.pcPlus 2 ∧ ∃ nnn, s.current = .call nnn) ∧
    (t.sp ≠ s.sp → (s.current = .ret ∧ t.sp.val + 1 = s.sp.val) ∨
      ((∃ nnn, s.current = .call nnn) ∧ t.sp.val = s.sp.val + 1))

/-! ## Invariant, reset and outputs -/

/-- The invariant is kept by every step, from every state that meets it. Its clauses about a halted core rest on the
spec's decision D8 (log 12); the canonical form of memory is the model's own (log 7). -/
def Obligations.StepKeepsTheInvariant : Prop := ∀ s t : State, s.Inv → step s = .next t → t.Inv

/-- The state after reset, and after a reset with any legal image from any state, meets the invariant. -/
def Obligations.ResetMeetsTheInvariant : Prop :=
  State.reset.Inv ∧ ∀ (s t : State) (image : List Byte), resetWith image s = .next t → t.Inv

/-- A reset with a legal image leaves every item of R45's table at its value, whatever the state before, a halted one
included; the core runs. The values are the spec's decisions D13 and D14 (log 5, log 6). -/
def Obligations.ResetPutsRegistersInPlace : Prop :=
  ∀ (s : State) (image : List Byte), image.length ≤ 3584 → ∃ t, resetWith image s = .next t ∧
    t.value .pc = 0x200 ∧ (∀ p, p ≠ .pc → (∀ a, p ≠ .mem a) → t.value p = 0) ∧ t.Running

/-- A reset with a legal image leaves the font at 0x000, the image at 0x200 and zeros elsewhere, for every FONT. The
zeros are the spec's decision D14 (log 7). -/
def Obligations.ResetFillsMemory : Prop :=
  ∀ (s : State) (image : List Byte), image.length ≤ 3584 → ∃ t, resetWith image s = .next t ∧
    (∀ (g : Fin 16) (k : Fin 5), t.memRead (5 * g.val + k.val) = (s.params.font[g.val])[k.val]) ∧
    (∀ (j : Nat) (h : j < image.length), t.memRead (0x200 + j) = image[j]) ∧
    (∀ a < 4096, 0x050 ≤ a → (a < 0x200 ∨ 0x200 + image.length ≤ a) → t.memRead a = 0)

/-- No state survives a reset: two cores with the same parameters and input streams are equal after it (the spec's
decision D14; what the streams keep is log 17). -/
def Obligations.ResetForgetsTheState : Prop :=
  ∀ (s s' : State) (image : List Byte), s'.params = s.params → s'.inputs = s.inputs → s'.drawn = s.drawn →
    resetWith image s' = resetWith image s

/-- An image over 3584 bytes is refused as ProgramTooLarge; any other is loaded. -/
def Obligations.TooLargeImageIsRefused : Prop :=
  ∀ (s : State) (image : List Byte),
    (3584 < image.length → resetWith image s = .refused .programTooLarge) ∧
    (image.length ≤ 3584 → ∃ t, resetWith image s = .next t)

/-- The outputs: byte `r * 64 + c` of the framebuffer view is 1 for a lit pixel and 0 for a dark one, and the sound
signal is on exactly while ST is above 0. The value of a lit pixel is the spec's decision D25, the time of the sound
signal its decision D26 (log 22). `fault_out` is 0, 1, 2, 3 for none, CallStackOverflow, CallStackUnderflow,
KeyIndexOutOfRange, numbers that are its decision D8 (log 12). -/
def Obligations.OutputsShowPixelsAndSound : Prop :=
  ∀ s : State, (∀ (r : Fin 32) (c : Fin 64) (h : r.val * 64 + c.val < 2048),
      (s.fbOut[r.val * 64 + c.val]'h).toNat = s.value (.pixel r c)) ∧
    (s.soundOut = true ↔ 0 < s.value .sound) ∧ s.waitingOut = s.waiting ∧
    (s.faultOut.toNat = 0 ↔ s.fault = .none) ∧ (s.faultOut.toNat = 1 ↔ s.fault = .callStackOverflow) ∧
    (s.faultOut.toNat = 2 ↔ s.fault = .callStackUnderflow) ∧ (s.faultOut.toNat = 3 ↔ s.fault = .keyIndexOutOfRange)
end

