-- ==== Sys2Proof/Laws/State.lean ====
section
/-! SUPPORT. One lemma for each field and each named update of the state, true by rfl, and what each accessor reads after each
update. Later proofs rewrite with these and unfold no record update. -/

namespace Sys2Proof.Machine

/-! ### setReg -/

@[simp] theorem State.setReg_mem (s : State) (r : Reg) (b : Byte) : (s.setReg r b).mem = s.mem := rfl
@[simp] theorem State.setReg_V (s : State) (r : Reg) (b : Byte) : (s.setReg r b).V = s.V.set r.val b r.isLt := rfl
@[simp] theorem State.setReg_I (s : State) (r : Reg) (b : Byte) : (s.setReg r b).I = s.I := rfl
@[simp] theorem State.setReg_pc (s : State) (r : Reg) (b : Byte) : (s.setReg r b).pc = s.pc := rfl
@[simp] theorem State.setReg_stack (s : State) (r : Reg) (b : Byte) : (s.setReg r b).stack = s.stack := rfl
@[simp] theorem State.setReg_sp (s : State) (r : Reg) (b : Byte) : (s.setReg r b).sp = s.sp := rfl
@[simp] theorem State.setReg_DT (s : State) (r : Reg) (b : Byte) : (s.setReg r b).DT = s.DT := rfl
@[simp] theorem State.setReg_ST (s : State) (r : Reg) (b : Byte) : (s.setReg r b).ST = s.ST := rfl
@[simp] theorem State.setReg_fb (s : State) (r : Reg) (b : Byte) : (s.setReg r b).fb = s.fb := rfl
@[simp] theorem State.setReg_keys (s : State) (r : Reg) (b : Byte) : (s.setReg r b).keys = s.keys := rfl
@[simp] theorem State.setReg_waiting (s : State) (r : Reg) (b : Byte) : (s.setReg r b).waiting = s.waiting := rfl
@[simp] theorem State.setReg_waitReg (s : State) (r : Reg) (b : Byte) : (s.setReg r b).waitReg = s.waitReg := rfl
@[simp] theorem State.setReg_dirty (s : State) (r : Reg) (b : Byte) : (s.setReg r b).dirty = s.dirty := rfl
@[simp] theorem State.setReg_fault (s : State) (r : Reg) (b : Byte) : (s.setReg r b).fault = s.fault := rfl
@[simp] theorem State.setReg_params (s : State) (r : Reg) (b : Byte) : (s.setReg r b).params = s.params := rfl
@[simp] theorem State.setReg_rndIn (s : State) (r : Reg) (b : Byte) : (s.setReg r b).rndIn = s.rndIn := rfl
@[simp] theorem State.setReg_inputs (s : State) (r : Reg) (b : Byte) : (s.setReg r b).inputs = s.inputs := rfl
@[simp] theorem State.setReg_drawn (s : State) (r : Reg) (b : Byte) : (s.setReg r b).drawn = s.drawn := rfl
@[simp] theorem State.memRead_setReg (s : State) (r : Reg) (b : Byte) (d : Nat) : (s.setReg r b).memRead d = s.memRead d := rfl
@[simp] theorem State.keyDown_setReg (s : State) (r : Reg) (b : Byte) (k : Fin 16) : (s.setReg r b).keyDown k = s.keyDown k := rfl

/-! ### setPc -/

@[simp] theorem State.setPc_mem (s : State) (a : Addr) : (s.setPc a).mem = s.mem := rfl
@[simp] theorem State.setPc_V (s : State) (a : Addr) : (s.setPc a).V = s.V := rfl
@[simp] theorem State.setPc_I (s : State) (a : Addr) : (s.setPc a).I = s.I := rfl
@[simp] theorem State.setPc_pc (s : State) (a : Addr) : (s.setPc a).pc = a := rfl
@[simp] theorem State.setPc_stack (s : State) (a : Addr) : (s.setPc a).stack = s.stack := rfl
@[simp] theorem State.setPc_sp (s : State) (a : Addr) : (s.setPc a).sp = s.sp := rfl
@[simp] theorem State.setPc_DT (s : State) (a : Addr) : (s.setPc a).DT = s.DT := rfl
@[simp] theorem State.setPc_ST (s : State) (a : Addr) : (s.setPc a).ST = s.ST := rfl
@[simp] theorem State.setPc_fb (s : State) (a : Addr) : (s.setPc a).fb = s.fb := rfl
@[simp] theorem State.setPc_keys (s : State) (a : Addr) : (s.setPc a).keys = s.keys := rfl
@[simp] theorem State.setPc_waiting (s : State) (a : Addr) : (s.setPc a).waiting = s.waiting := rfl
@[simp] theorem State.setPc_waitReg (s : State) (a : Addr) : (s.setPc a).waitReg = s.waitReg := rfl
@[simp] theorem State.setPc_dirty (s : State) (a : Addr) : (s.setPc a).dirty = s.dirty := rfl
@[simp] theorem State.setPc_fault (s : State) (a : Addr) : (s.setPc a).fault = s.fault := rfl
@[simp] theorem State.setPc_params (s : State) (a : Addr) : (s.setPc a).params = s.params := rfl
@[simp] theorem State.setPc_rndIn (s : State) (a : Addr) : (s.setPc a).rndIn = s.rndIn := rfl
@[simp] theorem State.setPc_inputs (s : State) (a : Addr) : (s.setPc a).inputs = s.inputs := rfl
@[simp] theorem State.setPc_drawn (s : State) (a : Addr) : (s.setPc a).drawn = s.drawn := rfl
@[simp] theorem State.reg_setPc (s : State) (a : Addr) (q : Reg) : (s.setPc a).reg q = s.reg q := rfl
@[simp] theorem State.memRead_setPc (s : State) (a : Addr) (d : Nat) : (s.setPc a).memRead d = s.memRead d := rfl
@[simp] theorem State.keyDown_setPc (s : State) (a : Addr) (k : Fin 16) : (s.setPc a).keyDown k = s.keyDown k := rfl

/-! ### advance -/

@[simp] theorem State.advance_mem (s : State) : (s.advance).mem = s.mem := rfl
@[simp] theorem State.advance_V (s : State) : (s.advance).V = s.V := rfl
@[simp] theorem State.advance_I (s : State) : (s.advance).I = s.I := rfl
@[simp] theorem State.advance_pc (s : State) : (s.advance).pc = s.pc + 2 := rfl
@[simp] theorem State.advance_stack (s : State) : (s.advance).stack = s.stack := rfl
@[simp] theorem State.advance_sp (s : State) : (s.advance).sp = s.sp := rfl
@[simp] theorem State.advance_DT (s : State) : (s.advance).DT = s.DT := rfl
@[simp] theorem State.advance_ST (s : State) : (s.advance).ST = s.ST := rfl
@[simp] theorem State.advance_fb (s : State) : (s.advance).fb = s.fb := rfl
@[simp] theorem State.advance_keys (s : State) : (s.advance).keys = s.keys := rfl
@[simp] theorem State.advance_waiting (s : State) : (s.advance).waiting = s.waiting := rfl
@[simp] theorem State.advance_waitReg (s : State) : (s.advance).waitReg = s.waitReg := rfl
@[simp] theorem State.advance_dirty (s : State) : (s.advance).dirty = s.dirty := rfl
@[simp] theorem State.advance_fault (s : State) : (s.advance).fault = s.fault := rfl
@[simp] theorem State.advance_params (s : State) : (s.advance).params = s.params := rfl
@[simp] theorem State.advance_rndIn (s : State) : (s.advance).rndIn = s.rndIn := rfl
@[simp] theorem State.advance_inputs (s : State) : (s.advance).inputs = s.inputs := rfl
@[simp] theorem State.advance_drawn (s : State) : (s.advance).drawn = s.drawn := rfl
@[simp] theorem State.reg_advance (s : State) (q : Reg) : (s.advance).reg q = s.reg q := rfl
@[simp] theorem State.memRead_advance (s : State) (d : Nat) : (s.advance).memRead d = s.memRead d := rfl
@[simp] theorem State.keyDown_advance (s : State) (k : Fin 16) : (s.advance).keyDown k = s.keyDown k := rfl

/-! ### setI -/

@[simp] theorem State.setI_mem (s : State) (a : Addr) : (s.setI a).mem = s.mem := rfl
@[simp] theorem State.setI_V (s : State) (a : Addr) : (s.setI a).V = s.V := rfl
@[simp] theorem State.setI_I (s : State) (a : Addr) : (s.setI a).I = a := rfl
@[simp] theorem State.setI_pc (s : State) (a : Addr) : (s.setI a).pc = s.pc := rfl
@[simp] theorem State.setI_stack (s : State) (a : Addr) : (s.setI a).stack = s.stack := rfl
@[simp] theorem State.setI_sp (s : State) (a : Addr) : (s.setI a).sp = s.sp := rfl
@[simp] theorem State.setI_DT (s : State) (a : Addr) : (s.setI a).DT = s.DT := rfl
@[simp] theorem State.setI_ST (s : State) (a : Addr) : (s.setI a).ST = s.ST := rfl
@[simp] theorem State.setI_fb (s : State) (a : Addr) : (s.setI a).fb = s.fb := rfl
@[simp] theorem State.setI_keys (s : State) (a : Addr) : (s.setI a).keys = s.keys := rfl
@[simp] theorem State.setI_waiting (s : State) (a : Addr) : (s.setI a).waiting = s.waiting := rfl
@[simp] theorem State.setI_waitReg (s : State) (a : Addr) : (s.setI a).waitReg = s.waitReg := rfl
@[simp] theorem State.setI_dirty (s : State) (a : Addr) : (s.setI a).dirty = s.dirty := rfl
@[simp] theorem State.setI_fault (s : State) (a : Addr) : (s.setI a).fault = s.fault := rfl
@[simp] theorem State.setI_params (s : State) (a : Addr) : (s.setI a).params = s.params := rfl
@[simp] theorem State.setI_rndIn (s : State) (a : Addr) : (s.setI a).rndIn = s.rndIn := rfl
@[simp] theorem State.setI_inputs (s : State) (a : Addr) : (s.setI a).inputs = s.inputs := rfl
@[simp] theorem State.setI_drawn (s : State) (a : Addr) : (s.setI a).drawn = s.drawn := rfl
@[simp] theorem State.reg_setI (s : State) (a : Addr) (q : Reg) : (s.setI a).reg q = s.reg q := rfl
@[simp] theorem State.memRead_setI (s : State) (a : Addr) (d : Nat) : (s.setI a).memRead d = s.memRead d := rfl
@[simp] theorem State.keyDown_setI (s : State) (a : Addr) (k : Fin 16) : (s.setI a).keyDown k = s.keyDown k := rfl

/-! ### setDT -/

@[simp] theorem State.setDT_mem (s : State) (b : Byte) : (s.setDT b).mem = s.mem := rfl
@[simp] theorem State.setDT_V (s : State) (b : Byte) : (s.setDT b).V = s.V := rfl
@[simp] theorem State.setDT_I (s : State) (b : Byte) : (s.setDT b).I = s.I := rfl
@[simp] theorem State.setDT_pc (s : State) (b : Byte) : (s.setDT b).pc = s.pc := rfl
@[simp] theorem State.setDT_stack (s : State) (b : Byte) : (s.setDT b).stack = s.stack := rfl
@[simp] theorem State.setDT_sp (s : State) (b : Byte) : (s.setDT b).sp = s.sp := rfl
@[simp] theorem State.setDT_DT (s : State) (b : Byte) : (s.setDT b).DT = b := rfl
@[simp] theorem State.setDT_ST (s : State) (b : Byte) : (s.setDT b).ST = s.ST := rfl
@[simp] theorem State.setDT_fb (s : State) (b : Byte) : (s.setDT b).fb = s.fb := rfl
@[simp] theorem State.setDT_keys (s : State) (b : Byte) : (s.setDT b).keys = s.keys := rfl
@[simp] theorem State.setDT_waiting (s : State) (b : Byte) : (s.setDT b).waiting = s.waiting := rfl
@[simp] theorem State.setDT_waitReg (s : State) (b : Byte) : (s.setDT b).waitReg = s.waitReg := rfl
@[simp] theorem State.setDT_dirty (s : State) (b : Byte) : (s.setDT b).dirty = s.dirty := rfl
@[simp] theorem State.setDT_fault (s : State) (b : Byte) : (s.setDT b).fault = s.fault := rfl
@[simp] theorem State.setDT_params (s : State) (b : Byte) : (s.setDT b).params = s.params := rfl
@[simp] theorem State.setDT_rndIn (s : State) (b : Byte) : (s.setDT b).rndIn = s.rndIn := rfl
@[simp] theorem State.setDT_inputs (s : State) (b : Byte) : (s.setDT b).inputs = s.inputs := rfl
@[simp] theorem State.setDT_drawn (s : State) (b : Byte) : (s.setDT b).drawn = s.drawn := rfl
@[simp] theorem State.reg_setDT (s : State) (b : Byte) (q : Reg) : (s.setDT b).reg q = s.reg q := rfl
@[simp] theorem State.memRead_setDT (s : State) (b : Byte) (d : Nat) : (s.setDT b).memRead d = s.memRead d := rfl
@[simp] theorem State.keyDown_setDT (s : State) (b : Byte) (k : Fin 16) : (s.setDT b).keyDown k = s.keyDown k := rfl

/-! ### setST -/

@[simp] theorem State.setST_mem (s : State) (b : Byte) : (s.setST b).mem = s.mem := rfl
@[simp] theorem State.setST_V (s : State) (b : Byte) : (s.setST b).V = s.V := rfl
@[simp] theorem State.setST_I (s : State) (b : Byte) : (s.setST b).I = s.I := rfl
@[simp] theorem State.setST_pc (s : State) (b : Byte) : (s.setST b).pc = s.pc := rfl
@[simp] theorem State.setST_stack (s : State) (b : Byte) : (s.setST b).stack = s.stack := rfl
@[simp] theorem State.setST_sp (s : State) (b : Byte) : (s.setST b).sp = s.sp := rfl
@[simp] theorem State.setST_DT (s : State) (b : Byte) : (s.setST b).DT = s.DT := rfl
@[simp] theorem State.setST_ST (s : State) (b : Byte) : (s.setST b).ST = b := rfl
@[simp] theorem State.setST_fb (s : State) (b : Byte) : (s.setST b).fb = s.fb := rfl
@[simp] theorem State.setST_keys (s : State) (b : Byte) : (s.setST b).keys = s.keys := rfl
@[simp] theorem State.setST_waiting (s : State) (b : Byte) : (s.setST b).waiting = s.waiting := rfl
@[simp] theorem State.setST_waitReg (s : State) (b : Byte) : (s.setST b).waitReg = s.waitReg := rfl
@[simp] theorem State.setST_dirty (s : State) (b : Byte) : (s.setST b).dirty = s.dirty := rfl
@[simp] theorem State.setST_fault (s : State) (b : Byte) : (s.setST b).fault = s.fault := rfl
@[simp] theorem State.setST_params (s : State) (b : Byte) : (s.setST b).params = s.params := rfl
@[simp] theorem State.setST_rndIn (s : State) (b : Byte) : (s.setST b).rndIn = s.rndIn := rfl
@[simp] theorem State.setST_inputs (s : State) (b : Byte) : (s.setST b).inputs = s.inputs := rfl
@[simp] theorem State.setST_drawn (s : State) (b : Byte) : (s.setST b).drawn = s.drawn := rfl
@[simp] theorem State.reg_setST (s : State) (b : Byte) (q : Reg) : (s.setST b).reg q = s.reg q := rfl
@[simp] theorem State.memRead_setST (s : State) (b : Byte) (d : Nat) : (s.setST b).memRead d = s.memRead d := rfl
@[simp] theorem State.keyDown_setST (s : State) (b : Byte) (k : Fin 16) : (s.setST b).keyDown k = s.keyDown k := rfl

/-! ### memWrite -/

@[simp] theorem State.memWrite_mem (s : State) (e : Nat) (b : Byte) : (s.memWrite e b).mem = Memory.write s.params.font s.mem (e % 4096) b := rfl
@[simp] theorem State.memWrite_V (s : State) (e : Nat) (b : Byte) : (s.memWrite e b).V = s.V := rfl
@[simp] theorem State.memWrite_I (s : State) (e : Nat) (b : Byte) : (s.memWrite e b).I = s.I := rfl
@[simp] theorem State.memWrite_pc (s : State) (e : Nat) (b : Byte) : (s.memWrite e b).pc = s.pc := rfl
@[simp] theorem State.memWrite_stack (s : State) (e : Nat) (b : Byte) : (s.memWrite e b).stack = s.stack := rfl
@[simp] theorem State.memWrite_sp (s : State) (e : Nat) (b : Byte) : (s.memWrite e b).sp = s.sp := rfl
@[simp] theorem State.memWrite_DT (s : State) (e : Nat) (b : Byte) : (s.memWrite e b).DT = s.DT := rfl
@[simp] theorem State.memWrite_ST (s : State) (e : Nat) (b : Byte) : (s.memWrite e b).ST = s.ST := rfl
@[simp] theorem State.memWrite_fb (s : State) (e : Nat) (b : Byte) : (s.memWrite e b).fb = s.fb := rfl
@[simp] theorem State.memWrite_keys (s : State) (e : Nat) (b : Byte) : (s.memWrite e b).keys = s.keys := rfl
@[simp] theorem State.memWrite_waiting (s : State) (e : Nat) (b : Byte) : (s.memWrite e b).waiting = s.waiting := rfl
@[simp] theorem State.memWrite_waitReg (s : State) (e : Nat) (b : Byte) : (s.memWrite e b).waitReg = s.waitReg := rfl
@[simp] theorem State.memWrite_dirty (s : State) (e : Nat) (b : Byte) : (s.memWrite e b).dirty = s.dirty := rfl
@[simp] theorem State.memWrite_fault (s : State) (e : Nat) (b : Byte) : (s.memWrite e b).fault = s.fault := rfl
@[simp] theorem State.memWrite_params (s : State) (e : Nat) (b : Byte) : (s.memWrite e b).params = s.params := rfl
@[simp] theorem State.memWrite_rndIn (s : State) (e : Nat) (b : Byte) : (s.memWrite e b).rndIn = s.rndIn := rfl
@[simp] theorem State.memWrite_inputs (s : State) (e : Nat) (b : Byte) : (s.memWrite e b).inputs = s.inputs := rfl
@[simp] theorem State.memWrite_drawn (s : State) (e : Nat) (b : Byte) : (s.memWrite e b).drawn = s.drawn := rfl
@[simp] theorem State.reg_memWrite (s : State) (e : Nat) (b : Byte) (q : Reg) : (s.memWrite e b).reg q = s.reg q := rfl
@[simp] theorem State.keyDown_memWrite (s : State) (e : Nat) (b : Byte) (k : Fin 16) : (s.memWrite e b).keyDown k = s.keyDown k := rfl

/-! ### pushStack -/

@[simp] theorem State.pushStack_mem (s : State) (a : Addr) (h : s.sp.val < 16) : (s.pushStack a h).mem = s.mem := rfl
@[simp] theorem State.pushStack_V (s : State) (a : Addr) (h : s.sp.val < 16) : (s.pushStack a h).V = s.V := rfl
@[simp] theorem State.pushStack_I (s : State) (a : Addr) (h : s.sp.val < 16) : (s.pushStack a h).I = s.I := rfl
@[simp] theorem State.pushStack_pc (s : State) (a : Addr) (h : s.sp.val < 16) : (s.pushStack a h).pc = s.pc := rfl
@[simp] theorem State.pushStack_stack (s : State) (a : Addr) (h : s.sp.val < 16) : (s.pushStack a h).stack = s.stack.set s.sp.val a h := rfl
@[simp] theorem State.pushStack_sp (s : State) (a : Addr) (h : s.sp.val < 16) : (s.pushStack a h).sp = ⟨s.sp.val + 1, by omega⟩ := rfl
@[simp] theorem State.pushStack_DT (s : State) (a : Addr) (h : s.sp.val < 16) : (s.pushStack a h).DT = s.DT := rfl
@[simp] theorem State.pushStack_ST (s : State) (a : Addr) (h : s.sp.val < 16) : (s.pushStack a h).ST = s.ST := rfl
@[simp] theorem State.pushStack_fb (s : State) (a : Addr) (h : s.sp.val < 16) : (s.pushStack a h).fb = s.fb := rfl
@[simp] theorem State.pushStack_keys (s : State) (a : Addr) (h : s.sp.val < 16) : (s.pushStack a h).keys = s.keys := rfl
@[simp] theorem State.pushStack_waiting (s : State) (a : Addr) (h : s.sp.val < 16) : (s.pushStack a h).waiting = s.waiting := rfl
@[simp] theorem State.pushStack_waitReg (s : State) (a : Addr) (h : s.sp.val < 16) : (s.pushStack a h).waitReg = s.waitReg := rfl
@[simp] theorem State.pushStack_dirty (s : State) (a : Addr) (h : s.sp.val < 16) : (s.pushStack a h).dirty = s.dirty := rfl
@[simp] theorem State.pushStack_fault (s : State) (a : Addr) (h : s.sp.val < 16) : (s.pushStack a h).fault = s.fault := rfl
@[simp] theorem State.pushStack_params (s : State) (a : Addr) (h : s.sp.val < 16) : (s.pushStack a h).params = s.params := rfl
@[simp] theorem State.pushStack_rndIn (s : State) (a : Addr) (h : s.sp.val < 16) : (s.pushStack a h).rndIn = s.rndIn := rfl
@[simp] theorem State.pushStack_inputs (s : State) (a : Addr) (h : s.sp.val < 16) : (s.pushStack a h).inputs = s.inputs := rfl
@[simp] theorem State.pushStack_drawn (s : State) (a : Addr) (h : s.sp.val < 16) : (s.pushStack a h).drawn = s.drawn := rfl
@[simp] theorem State.reg_pushStack (s : State) (a : Addr) (h : s.sp.val < 16) (q : Reg) : (s.pushStack a h).reg q = s.reg q := rfl
@[simp] theorem State.memRead_pushStack (s : State) (a : Addr) (h : s.sp.val < 16) (d : Nat) : (s.pushStack a h).memRead d = s.memRead d := rfl
@[simp] theorem State.keyDown_pushStack (s : State) (a : Addr) (h : s.sp.val < 16) (k : Fin 16) : (s.pushStack a h).keyDown k = s.keyDown k := rfl

/-! ### dropStack -/

@[simp] theorem State.dropStack_mem (s : State) (h : 0 < s.sp.val) : (s.dropStack h).mem = s.mem := rfl
@[simp] theorem State.dropStack_V (s : State) (h : 0 < s.sp.val) : (s.dropStack h).V = s.V := rfl
@[simp] theorem State.dropStack_I (s : State) (h : 0 < s.sp.val) : (s.dropStack h).I = s.I := rfl
@[simp] theorem State.dropStack_pc (s : State) (h : 0 < s.sp.val) : (s.dropStack h).pc = s.pc := rfl
@[simp] theorem State.dropStack_stack (s : State) (h : 0 < s.sp.val) : (s.dropStack h).stack = s.stack := rfl
@[simp] theorem State.dropStack_sp (s : State) (h : 0 < s.sp.val) : (s.dropStack h).sp = ⟨s.sp.val - 1, by omega⟩ := rfl
@[simp] theorem State.dropStack_DT (s : State) (h : 0 < s.sp.val) : (s.dropStack h).DT = s.DT := rfl
@[simp] theorem State.dropStack_ST (s : State) (h : 0 < s.sp.val) : (s.dropStack h).ST = s.ST := rfl
@[simp] theorem State.dropStack_fb (s : State) (h : 0 < s.sp.val) : (s.dropStack h).fb = s.fb := rfl
@[simp] theorem State.dropStack_keys (s : State) (h : 0 < s.sp.val) : (s.dropStack h).keys = s.keys := rfl
@[simp] theorem State.dropStack_waiting (s : State) (h : 0 < s.sp.val) : (s.dropStack h).waiting = s.waiting := rfl
@[simp] theorem State.dropStack_waitReg (s : State) (h : 0 < s.sp.val) : (s.dropStack h).waitReg = s.waitReg := rfl
@[simp] theorem State.dropStack_dirty (s : State) (h : 0 < s.sp.val) : (s.dropStack h).dirty = s.dirty := rfl
@[simp] theorem State.dropStack_fault (s : State) (h : 0 < s.sp.val) : (s.dropStack h).fault = s.fault := rfl
@[simp] theorem State.dropStack_params (s : State) (h : 0 < s.sp.val) : (s.dropStack h).params = s.params := rfl
@[simp] theorem State.dropStack_rndIn (s : State) (h : 0 < s.sp.val) : (s.dropStack h).rndIn = s.rndIn := rfl
@[simp] theorem State.dropStack_inputs (s : State) (h : 0 < s.sp.val) : (s.dropStack h).inputs = s.inputs := rfl
@[simp] theorem State.dropStack_drawn (s : State) (h : 0 < s.sp.val) : (s.dropStack h).drawn = s.drawn := rfl
@[simp] theorem State.reg_dropStack (s : State) (h : 0 < s.sp.val) (q : Reg) : (s.dropStack h).reg q = s.reg q := rfl
@[simp] theorem State.memRead_dropStack (s : State) (h : 0 < s.sp.val) (d : Nat) : (s.dropStack h).memRead d = s.memRead d := rfl
@[simp] theorem State.keyDown_dropStack (s : State) (h : 0 < s.sp.val) (k : Fin 16) : (s.dropStack h).keyDown k = s.keyDown k := rfl

/-! ### paint -/

@[simp] theorem State.paint_mem (s : State) (g : Framebuffer) : (s.paint g).mem = s.mem := rfl
@[simp] theorem State.paint_V (s : State) (g : Framebuffer) : (s.paint g).V = s.V := rfl
@[simp] theorem State.paint_I (s : State) (g : Framebuffer) : (s.paint g).I = s.I := rfl
@[simp] theorem State.paint_pc (s : State) (g : Framebuffer) : (s.paint g).pc = s.pc := rfl
@[simp] theorem State.paint_stack (s : State) (g : Framebuffer) : (s.paint g).stack = s.stack := rfl
@[simp] theorem State.paint_sp (s : State) (g : Framebuffer) : (s.paint g).sp = s.sp := rfl
@[simp] theorem State.paint_DT (s : State) (g : Framebuffer) : (s.paint g).DT = s.DT := rfl
@[simp] theorem State.paint_ST (s : State) (g : Framebuffer) : (s.paint g).ST = s.ST := rfl
@[simp] theorem State.paint_fb (s : State) (g : Framebuffer) : (s.paint g).fb = g := rfl
@[simp] theorem State.paint_keys (s : State) (g : Framebuffer) : (s.paint g).keys = s.keys := rfl
@[simp] theorem State.paint_waiting (s : State) (g : Framebuffer) : (s.paint g).waiting = s.waiting := rfl
@[simp] theorem State.paint_waitReg (s : State) (g : Framebuffer) : (s.paint g).waitReg = s.waitReg := rfl
@[simp] theorem State.paint_dirty (s : State) (g : Framebuffer) : (s.paint g).dirty = true := rfl
@[simp] theorem State.paint_fault (s : State) (g : Framebuffer) : (s.paint g).fault = s.fault := rfl
@[simp] theorem State.paint_params (s : State) (g : Framebuffer) : (s.paint g).params = s.params := rfl
@[simp] theorem State.paint_rndIn (s : State) (g : Framebuffer) : (s.paint g).rndIn = s.rndIn := rfl
@[simp] theorem State.paint_inputs (s : State) (g : Framebuffer) : (s.paint g).inputs = s.inputs := rfl
@[simp] theorem State.paint_drawn (s : State) (g : Framebuffer) : (s.paint g).drawn = s.drawn := rfl
@[simp] theorem State.reg_paint (s : State) (g : Framebuffer) (q : Reg) : (s.paint g).reg q = s.reg q := rfl
@[simp] theorem State.memRead_paint (s : State) (g : Framebuffer) (d : Nat) : (s.paint g).memRead d = s.memRead d := rfl
@[simp] theorem State.keyDown_paint (s : State) (g : Framebuffer) (k : Fin 16) : (s.paint g).keyDown k = s.keyDown k := rfl

/-! ### enterWait -/

@[simp] theorem State.enterWait_mem (s : State) (x : Reg) : (s.enterWait x).mem = s.mem := rfl
@[simp] theorem State.enterWait_V (s : State) (x : Reg) : (s.enterWait x).V = s.V := rfl
@[simp] theorem State.enterWait_I (s : State) (x : Reg) : (s.enterWait x).I = s.I := rfl
@[simp] theorem State.enterWait_pc (s : State) (x : Reg) : (s.enterWait x).pc = s.pc := rfl
@[simp] theorem State.enterWait_stack (s : State) (x : Reg) : (s.enterWait x).stack = s.stack := rfl
@[simp] theorem State.enterWait_sp (s : State) (x : Reg) : (s.enterWait x).sp = s.sp := rfl
@[simp] theorem State.enterWait_DT (s : State) (x : Reg) : (s.enterWait x).DT = s.DT := rfl
@[simp] theorem State.enterWait_ST (s : State) (x : Reg) : (s.enterWait x).ST = s.ST := rfl
@[simp] theorem State.enterWait_fb (s : State) (x : Reg) : (s.enterWait x).fb = s.fb := rfl
@[simp] theorem State.enterWait_keys (s : State) (x : Reg) : (s.enterWait x).keys = s.keys := rfl
@[simp] theorem State.enterWait_waiting (s : State) (x : Reg) : (s.enterWait x).waiting = true := rfl
@[simp] theorem State.enterWait_waitReg (s : State) (x : Reg) : (s.enterWait x).waitReg = x := rfl
@[simp] theorem State.enterWait_dirty (s : State) (x : Reg) : (s.enterWait x).dirty = s.dirty := rfl
@[simp] theorem State.enterWait_fault (s : State) (x : Reg) : (s.enterWait x).fault = s.fault := rfl
@[simp] theorem State.enterWait_params (s : State) (x : Reg) : (s.enterWait x).params = s.params := rfl
@[simp] theorem State.enterWait_rndIn (s : State) (x : Reg) : (s.enterWait x).rndIn = s.rndIn := rfl
@[simp] theorem State.enterWait_inputs (s : State) (x : Reg) : (s.enterWait x).inputs = s.inputs := rfl
@[simp] theorem State.enterWait_drawn (s : State) (x : Reg) : (s.enterWait x).drawn = s.drawn := rfl
@[simp] theorem State.reg_enterWait (s : State) (x : Reg) (q : Reg) : (s.enterWait x).reg q = s.reg q := rfl
@[simp] theorem State.memRead_enterWait (s : State) (x : Reg) (d : Nat) : (s.enterWait x).memRead d = s.memRead d := rfl
@[simp] theorem State.keyDown_enterWait (s : State) (x : Reg) (k : Fin 16) : (s.enterWait x).keyDown k = s.keyDown k := rfl

/-! ### skipIf -/

@[simp] theorem State.skipIf_mem (s : State) (c : Bool) : (s.skipIf c).mem = s.mem := rfl
@[simp] theorem State.skipIf_V (s : State) (c : Bool) : (s.skipIf c).V = s.V := rfl
@[simp] theorem State.skipIf_I (s : State) (c : Bool) : (s.skipIf c).I = s.I := rfl
@[simp] theorem State.skipIf_pc (s : State) (c : Bool) : (s.skipIf c).pc = if c then s.pc + 4 else s.pc + 2 := rfl
@[simp] theorem State.skipIf_stack (s : State) (c : Bool) : (s.skipIf c).stack = s.stack := rfl
@[simp] theorem State.skipIf_sp (s : State) (c : Bool) : (s.skipIf c).sp = s.sp := rfl
@[simp] theorem State.skipIf_DT (s : State) (c : Bool) : (s.skipIf c).DT = s.DT := rfl
@[simp] theorem State.skipIf_ST (s : State) (c : Bool) : (s.skipIf c).ST = s.ST := rfl
@[simp] theorem State.skipIf_fb (s : State) (c : Bool) : (s.skipIf c).fb = s.fb := rfl
@[simp] theorem State.skipIf_keys (s : State) (c : Bool) : (s.skipIf c).keys = s.keys := rfl
@[simp] theorem State.skipIf_waiting (s : State) (c : Bool) : (s.skipIf c).waiting = s.waiting := rfl
@[simp] theorem State.skipIf_waitReg (s : State) (c : Bool) : (s.skipIf c).waitReg = s.waitReg := rfl
@[simp] theorem State.skipIf_dirty (s : State) (c : Bool) : (s.skipIf c).dirty = s.dirty := rfl
@[simp] theorem State.skipIf_fault (s : State) (c : Bool) : (s.skipIf c).fault = s.fault := rfl
@[simp] theorem State.skipIf_params (s : State) (c : Bool) : (s.skipIf c).params = s.params := rfl
@[simp] theorem State.skipIf_rndIn (s : State) (c : Bool) : (s.skipIf c).rndIn = s.rndIn := rfl
@[simp] theorem State.skipIf_inputs (s : State) (c : Bool) : (s.skipIf c).inputs = s.inputs := rfl
@[simp] theorem State.skipIf_drawn (s : State) (c : Bool) : (s.skipIf c).drawn = s.drawn := rfl
@[simp] theorem State.reg_skipIf (s : State) (c : Bool) (q : Reg) : (s.skipIf c).reg q = s.reg q := rfl
@[simp] theorem State.memRead_skipIf (s : State) (c : Bool) (d : Nat) : (s.skipIf c).memRead d = s.memRead d := rfl
@[simp] theorem State.keyDown_skipIf (s : State) (c : Bool) (k : Fin 16) : (s.skipIf c).keyDown k = s.keyDown k := rfl

/-! ### setVF -/

@[simp] theorem State.setVF_mem (s : State) (c : Bool) : (s.setVF c).mem = s.mem := rfl
@[simp] theorem State.setVF_I (s : State) (c : Bool) : (s.setVF c).I = s.I := rfl
@[simp] theorem State.setVF_pc (s : State) (c : Bool) : (s.setVF c).pc = s.pc := rfl
@[simp] theorem State.setVF_stack (s : State) (c : Bool) : (s.setVF c).stack = s.stack := rfl
@[simp] theorem State.setVF_sp (s : State) (c : Bool) : (s.setVF c).sp = s.sp := rfl
@[simp] theorem State.setVF_DT (s : State) (c : Bool) : (s.setVF c).DT = s.DT := rfl
@[simp] theorem State.setVF_ST (s : State) (c : Bool) : (s.setVF c).ST = s.ST := rfl
@[simp] theorem State.setVF_fb (s : State) (c : Bool) : (s.setVF c).fb = s.fb := rfl
@[simp] theorem State.setVF_keys (s : State) (c : Bool) : (s.setVF c).keys = s.keys := rfl
@[simp] theorem State.setVF_waiting (s : State) (c : Bool) : (s.setVF c).waiting = s.waiting := rfl
@[simp] theorem State.setVF_waitReg (s : State) (c : Bool) : (s.setVF c).waitReg = s.waitReg := rfl
@[simp] theorem State.setVF_dirty (s : State) (c : Bool) : (s.setVF c).dirty = s.dirty := rfl
@[simp] theorem State.setVF_fault (s : State) (c : Bool) : (s.setVF c).fault = s.fault := rfl
@[simp] theorem State.setVF_params (s : State) (c : Bool) : (s.setVF c).params = s.params := rfl
@[simp] theorem State.setVF_rndIn (s : State) (c : Bool) : (s.setVF c).rndIn = s.rndIn := rfl
@[simp] theorem State.setVF_inputs (s : State) (c : Bool) : (s.setVF c).inputs = s.inputs := rfl
@[simp] theorem State.setVF_drawn (s : State) (c : Bool) : (s.setVF c).drawn = s.drawn := rfl
@[simp] theorem State.memRead_setVF (s : State) (c : Bool) (d : Nat) : (s.setVF c).memRead d = s.memRead d := rfl
@[simp] theorem State.keyDown_setVF (s : State) (c : Bool) (k : Fin 16) : (s.setVF c).keyDown k = s.keyDown k := rfl

/-! ### latchInput -/

@[simp] theorem State.latchInput_mem (s : State) (p : Input) : (s.latchInput p).mem = s.mem := rfl
@[simp] theorem State.latchInput_V (s : State) (p : Input) : (s.latchInput p).V = s.V := rfl
@[simp] theorem State.latchInput_I (s : State) (p : Input) : (s.latchInput p).I = s.I := rfl
@[simp] theorem State.latchInput_pc (s : State) (p : Input) : (s.latchInput p).pc = s.pc := rfl
@[simp] theorem State.latchInput_stack (s : State) (p : Input) : (s.latchInput p).stack = s.stack := rfl
@[simp] theorem State.latchInput_sp (s : State) (p : Input) : (s.latchInput p).sp = s.sp := rfl
@[simp] theorem State.latchInput_DT (s : State) (p : Input) : (s.latchInput p).DT = s.DT := rfl
@[simp] theorem State.latchInput_ST (s : State) (p : Input) : (s.latchInput p).ST = s.ST := rfl
@[simp] theorem State.latchInput_fb (s : State) (p : Input) : (s.latchInput p).fb = s.fb := rfl
@[simp] theorem State.latchInput_keys (s : State) (p : Input) : (s.latchInput p).keys = p.keys := rfl
@[simp] theorem State.latchInput_waiting (s : State) (p : Input) : (s.latchInput p).waiting = s.waiting := rfl
@[simp] theorem State.latchInput_waitReg (s : State) (p : Input) : (s.latchInput p).waitReg = s.waitReg := rfl
@[simp] theorem State.latchInput_dirty (s : State) (p : Input) : (s.latchInput p).dirty = false := rfl
@[simp] theorem State.latchInput_fault (s : State) (p : Input) : (s.latchInput p).fault = s.fault := rfl
@[simp] theorem State.latchInput_params (s : State) (p : Input) : (s.latchInput p).params = s.params := rfl
@[simp] theorem State.latchInput_rndIn (s : State) (p : Input) : (s.latchInput p).rndIn = p.rnd := rfl
@[simp] theorem State.latchInput_inputs (s : State) (p : Input) : (s.latchInput p).inputs = s.inputs.tail := rfl
@[simp] theorem State.latchInput_drawn (s : State) (p : Input) : (s.latchInput p).drawn = s.drawn + 1 := rfl
@[simp] theorem State.reg_latchInput (s : State) (p : Input) (q : Reg) : (s.latchInput p).reg q = s.reg q := rfl
@[simp] theorem State.memRead_latchInput (s : State) (p : Input) (d : Nat) : (s.latchInput p).memRead d = s.memRead d := rfl

/-! ### timerTick -/

@[simp] theorem State.timerTick_mem (s : State) : (s.timerTick).mem = s.mem := rfl
@[simp] theorem State.timerTick_V (s : State) : (s.timerTick).V = s.V := rfl
@[simp] theorem State.timerTick_I (s : State) : (s.timerTick).I = s.I := rfl
@[simp] theorem State.timerTick_pc (s : State) : (s.timerTick).pc = s.pc := rfl
@[simp] theorem State.timerTick_stack (s : State) : (s.timerTick).stack = s.stack := rfl
@[simp] theorem State.timerTick_sp (s : State) : (s.timerTick).sp = s.sp := rfl
@[simp] theorem State.timerTick_DT (s : State) : (s.timerTick).DT = countDown s.DT := rfl
@[simp] theorem State.timerTick_ST (s : State) : (s.timerTick).ST = countDown s.ST := rfl
@[simp] theorem State.timerTick_fb (s : State) : (s.timerTick).fb = s.fb := rfl
@[simp] theorem State.timerTick_keys (s : State) : (s.timerTick).keys = s.keys := rfl
@[simp] theorem State.timerTick_waiting (s : State) : (s.timerTick).waiting = s.waiting := rfl
@[simp] theorem State.timerTick_waitReg (s : State) : (s.timerTick).waitReg = s.waitReg := rfl
@[simp] theorem State.timerTick_dirty (s : State) : (s.timerTick).dirty = s.dirty := rfl
@[simp] theorem State.timerTick_fault (s : State) : (s.timerTick).fault = s.fault := rfl
@[simp] theorem State.timerTick_params (s : State) : (s.timerTick).params = s.params := rfl
@[simp] theorem State.timerTick_rndIn (s : State) : (s.timerTick).rndIn = s.rndIn := rfl
@[simp] theorem State.timerTick_inputs (s : State) : (s.timerTick).inputs = s.inputs := rfl
@[simp] theorem State.timerTick_drawn (s : State) : (s.timerTick).drawn = s.drawn := rfl
@[simp] theorem State.reg_timerTick (s : State) (q : Reg) : (s.timerTick).reg q = s.reg q := rfl
@[simp] theorem State.memRead_timerTick (s : State) (d : Nat) : (s.timerTick).memRead d = s.memRead d := rfl
@[simp] theorem State.keyDown_timerTick (s : State) (k : Fin 16) : (s.timerTick).keyDown k = s.keyDown k := rfl

/-! ### supply -/

@[simp] theorem State.supply_mem (s : State) (p : Input) : (s.supply p).mem = s.mem := rfl
@[simp] theorem State.supply_V (s : State) (p : Input) : (s.supply p).V = s.V := rfl
@[simp] theorem State.supply_I (s : State) (p : Input) : (s.supply p).I = s.I := rfl
@[simp] theorem State.supply_pc (s : State) (p : Input) : (s.supply p).pc = s.pc := rfl
@[simp] theorem State.supply_stack (s : State) (p : Input) : (s.supply p).stack = s.stack := rfl
@[simp] theorem State.supply_sp (s : State) (p : Input) : (s.supply p).sp = s.sp := rfl
@[simp] theorem State.supply_DT (s : State) (p : Input) : (s.supply p).DT = s.DT := rfl
@[simp] theorem State.supply_ST (s : State) (p : Input) : (s.supply p).ST = s.ST := rfl
@[simp] theorem State.supply_fb (s : State) (p : Input) : (s.supply p).fb = s.fb := rfl
@[simp] theorem State.supply_keys (s : State) (p : Input) : (s.supply p).keys = s.keys := rfl
@[simp] theorem State.supply_waiting (s : State) (p : Input) : (s.supply p).waiting = s.waiting := rfl
@[simp] theorem State.supply_waitReg (s : State) (p : Input) : (s.supply p).waitReg = s.waitReg := rfl
@[simp] theorem State.supply_dirty (s : State) (p : Input) : (s.supply p).dirty = s.dirty := rfl
@[simp] theorem State.supply_fault (s : State) (p : Input) : (s.supply p).fault = s.fault := rfl
@[simp] theorem State.supply_params (s : State) (p : Input) : (s.supply p).params = s.params := rfl
@[simp] theorem State.supply_rndIn (s : State) (p : Input) : (s.supply p).rndIn = s.rndIn := rfl
@[simp] theorem State.supply_inputs (s : State) (p : Input) : (s.supply p).inputs = s.inputs ++ [p] := rfl
@[simp] theorem State.supply_drawn (s : State) (p : Input) : (s.supply p).drawn = s.drawn := rfl
@[simp] theorem State.reg_supply (s : State) (p : Input) (q : Reg) : (s.supply p).reg q = s.reg q := rfl
@[simp] theorem State.memRead_supply (s : State) (p : Input) (d : Nat) : (s.supply p).memRead d = s.memRead d := rfl
@[simp] theorem State.keyDown_supply (s : State) (p : Input) (k : Fin 16) : (s.supply p).keyDown k = s.keyDown k := rfl

/-! ### Registers -/

/-- A register read after a register write (R11). -/
theorem State.reg_setReg (s : State) (r q : Reg) (b : Byte) : (s.setReg r b).reg q = if r = q then b else s.reg q := by
  simp only [State.reg, State.setReg, Vector.getElem_set, Fin.val_inj]

@[simp] theorem State.reg_setReg_self (s : State) (r : Reg) (b : Byte) : (s.setReg r b).reg r = b := by
  simp [State.reg_setReg]

theorem State.reg_setReg_ne (s : State) {r q : Reg} (b : Byte) (h : r ≠ q) : (s.setReg r b).reg q = s.reg q := by
  simp [State.reg_setReg, h]

theorem State.reg_setVF (s : State) (c : Bool) (q : Reg) :
    (s.setVF c).reg q = if vf = q then flagByte c else s.reg q := State.reg_setReg s vf q (flagByte c)

/-- Two states with the same registers, read one by one, have the same register file. -/
theorem State.V_ext {s t : State} (h : ∀ r, s.reg r = t.reg r) : s.V = t.V := by
  apply Vector.ext
  intro i hi
  exact h ⟨i, hi⟩

/-! ### The call stack -/

@[simp] theorem State.stackTop_pushStack (s : State) (a : Addr) (h : s.sp.val < 16) (h' : 0 < (s.pushStack a h).sp.val) :
    (s.pushStack a h).stackTop h' = a := by
  simp [State.stackTop]

theorem State.stackTop_eq (s : State) (h : 0 < s.sp.val) (j : Fin 16) (hj : s.sp.val = j.val + 1) :
    s.stackTop h = s.stack[j.val] := by
  simp only [State.stackTop, hj, Nat.add_sub_cancel]

/-! ### The framebuffer -/

/-- A pixel after one pixel is flipped. -/
theorem Framebuffer.pixel_flip (fb : Framebuffer) (r r' : Fin 32) (c c' : Fin 64) :
    (fb.flip r c).pixel r' c' = if r = r' ∧ c = c' then !fb.pixel r c else fb.pixel r' c' := by
  by_cases hr : r = r'
  · subst hr
    by_cases hc : c = c'
    · subst hc; simp [Framebuffer.pixel, Framebuffer.flip]
    · have : c.val ≠ c'.val := fun h => hc (Fin.ext h)
      simp [Framebuffer.pixel, Framebuffer.flip, hc, this]
  · have : r.val ≠ r'.val := fun h => hr (Fin.ext h)
    simp [Framebuffer.pixel, Framebuffer.flip, hr, this]

@[simp] theorem Framebuffer.pixel_blank (r : Fin 32) (c : Fin 64) : Framebuffer.blank.pixel r c = false := by
  simp [Framebuffer.pixel, Framebuffer.blank]

/-- Framebuffers with the same pixels are the same. -/
theorem Framebuffer.ext_pixel {f g : Framebuffer} (h : ∀ r c, f.pixel r c = g.pixel r c) : f = g := by
  apply Vector.ext
  intro i hi
  apply Vector.ext
  intro j hj
  exact h ⟨i, hi⟩ ⟨j, hj⟩

end Sys2Proof.Machine
end

