-- ==== Sys2Proof/Laws/Memory.lean ====
section
/-! SUPPORT. The laws of memory: a read after a write, and that every memory operation keeps the canonical form
(20_memory R52, R58). -/

namespace Sys2Proof.Machine

@[simp] theorem Memory.read_nil (font : Font) (a : Nat) : Memory.read font [] a = Memory.unlisted font a := rfl

theorem Memory.read_cons (font : Font) (c : Host.Cell) (m : Memory) (a : Nat) :
    Memory.read font (c :: m) a = if c.1 = a then c.2 else Memory.read font m a := rfl

theorem Memory.read_erase (font : Font) (m : Memory) (a d : Nat) :
    Memory.read font (m.erase a) d = if a = d then Memory.unlisted font a else Memory.read font m d := by
  induction m with
  | nil => by_cases h : a = d <;> simp [Memory.erase, h]
  | cons c m ih =>
    simp only [Memory.erase] at ih ⊢
    by_cases hc : c.1 = a
    · rw [List.filter_cons_of_neg (by simp [hc]), ih, Memory.read_cons]
      by_cases h : a = d <;> simp [h, hc]
    · rw [List.filter_cons_of_pos (by simp [hc]), Memory.read_cons, Memory.read_cons, ih]
      by_cases h : a = d
      · subst h; simp [hc]
      · simp [h]

/-- An entry put in is read, when the list has none for its address; every other address reads as before. -/
theorem Memory.read_insert (font : Font) (m : Memory) (a d : Nat) (b : Byte) (h : ∀ c ∈ m, c.1 ≠ a) :
    Memory.read font (m.insert a b) d = if a = d then b else Memory.read font m d := by
  induction m with
  | nil => rfl
  | cons c m ih =>
    have hc : c.1 ≠ a := h c (by simp)
    rw [Memory.insert]
    split
    · rw [Memory.read_cons]
    · rw [Memory.read_cons, Memory.read_cons, ih (fun c' hc' => h c' (by simp [hc']))]
      by_cases had : a = d
      · subst had; simp [hc]
      · simp [had]

theorem Memory.ne_of_mem_erase {m : Memory} {a : Nat} : ∀ c ∈ m.erase a, c.1 ≠ a := by
  intro c hc
  simpa using (List.mem_filter.mp hc).2

/-- A read after a write: the written byte at the written address, the old byte everywhere else. -/
theorem Memory.read_write (font : Font) (m : Memory) (a d : Nat) (b : Byte) :
    Memory.read font (Memory.write font m a b) d = if a = d then b else Memory.read font m d := by
  rw [Memory.write]
  split
  · next hb => rw [Memory.read_erase, hb]
  · rw [Memory.read_insert _ _ _ _ _ Memory.ne_of_mem_erase, Memory.read_erase]
    by_cases h : a = d <;> simp [h]

theorem Memory.wf_nil (font : Font) : Memory.wf font [] := by simp [Memory.wf]

theorem Memory.wf_erase {font : Font} {m : Memory} (a : Nat) (h : Memory.wf font m) : Memory.wf font (m.erase a) :=
  ⟨h.1.filter _, fun c hc => h.2 c (List.mem_filter.mp hc).1⟩

theorem Memory.mem_insert {m : Memory} {a : Nat} {b : Byte} {c : Host.Cell} (h : c ∈ m.insert a b) :
    c = (a, b) ∨ c ∈ m := by
  induction m with
  | nil => simpa [Memory.insert] using h
  | cons d m ih =>
    rw [Memory.insert] at h
    split at h
    · simpa using h
    · rcases List.mem_cons.mp h with h | h
      · exact .inr (by simp [h])
      · rcases ih h with h | h
        · exact .inl h
        · exact .inr (by simp [h])

theorem Memory.pairwise_insert {m : Memory} {a : Nat} {b : Byte} (hm : m.Pairwise (fun c d => c.1 < d.1))
    (h : ∀ c ∈ m, c.1 ≠ a) : (m.insert a b).Pairwise (fun c d => c.1 < d.1) := by
  induction m with
  | nil => simp [Memory.insert]
  | cons d m ih =>
    have hd := List.pairwise_cons.mp hm
    rw [Memory.insert]
    split
    · next hlt =>
      refine List.pairwise_cons.mpr ⟨fun c hc => ?_, hm⟩
      rcases List.mem_cons.mp hc with rfl | hc
      · exact hlt
      · exact Nat.lt_trans hlt (hd.1 c hc)
    · next hlt =>
      refine List.pairwise_cons.mpr ⟨fun c hc => ?_, ih hd.2 fun c hc => h c (by simp [hc])⟩
      rcases Memory.mem_insert hc with rfl | hc
      · exact Nat.lt_of_le_of_ne (Nat.le_of_not_lt hlt) (h d (by simp))
      · exact hd.1 c hc

/-- A write keeps the canonical form. -/
theorem Memory.wf_write {font : Font} {m : Memory} {a : Nat} {b : Byte} (ha : a < 4096) (h : Memory.wf font m) :
    Memory.wf font (Memory.write font m a b) := by
  rw [Memory.write]
  split
  · exact Memory.wf_erase a h
  · next hb =>
    have he := Memory.wf_erase a h
    refine ⟨Memory.pairwise_insert he.1 Memory.ne_of_mem_erase, fun c hc => ?_⟩
    rcases Memory.mem_insert hc with rfl | hc
    · exact ⟨ha, hb⟩
    · exact he.2 c hc

/-! ### Through the state -/

/-- A byte read after a byte write, both addresses modulo 4096 (R52). -/
theorem State.memRead_memWrite (s : State) (e d : Nat) (b : Byte) :
    (s.memWrite e b).memRead d = if e % 4096 = d % 4096 then b else s.memRead d :=
  Memory.read_write s.params.font s.mem (e % 4096) (d % 4096) b

theorem State.memRead_memWrite_ne (s : State) {e d : Nat} (b : Byte) (h : e % 4096 ≠ d % 4096) :
    (s.memWrite e b).memRead d = s.memRead d := by
  rw [State.memRead_memWrite, if_neg h]

theorem State.memRead_mod (s : State) (e : Nat) : s.memRead (e % 4096) = s.memRead e := by
  simp [State.memRead]

/-- The byte a part names, when its address is computed as a number. -/
theorem State.value_mem_ofNat (s : State) (e : Nat) :
    s.value (.mem (BitVec.ofNat 12 e)) = (s.memRead e).toNat := by
  simp [State.value, State.memRead]

theorem State.wf_memWrite {s : State} (e : Nat) (b : Byte) (h : Memory.wf s.params.font s.mem) :
    Memory.wf (s.memWrite e b).params.font (s.memWrite e b).mem :=
  Memory.wf_write (Nat.mod_lt _ (by omega)) h

end Sys2Proof.Machine
end

