-- ==== Sys2Proof/Laws/Blocks.lean ====
section
/-! SUPPORT. What the shared operations over blocks do, said once: the register block of FX55 and FX65, the image copy
of a reset, and the result-and-flag pair of VF_ORDER. -/

namespace Sys2Proof.Machine

theorem mem_blockRegs (x i : Reg) : i ∈ blockRegs x ↔ i ≤ x := by
  simp [blockRegs]

theorem blockRegs_nodup (x : Reg) : (blockRegs x).Nodup :=
  (List.nodup_finRange 16).filter _

/-! ### Storing registers -/

theorem State.storeRegs_nil (s : State) (base : Nat) : s.storeRegs base [] = s := rfl

theorem State.storeRegs_cons (s : State) (base : Nat) (i : Reg) (rs : List Reg) :
    s.storeRegs base (i :: rs) = (s.memWrite (base + i.val) (s.reg i)).storeRegs base rs := rfl

/-- Storing registers changes memory and nothing else. -/
theorem State.storeRegs_eq (s : State) (base : Nat) (rs : List Reg) :
    s.storeRegs base rs = { s with mem := (s.storeRegs base rs).mem } := by
  induction rs generalizing s with
  | nil => rfl
  | cons i rs ih => rw [State.storeRegs_cons, ih]; rfl

@[simp] theorem State.storeRegs_reg (s : State) (base : Nat) (rs : List Reg) (q : Reg) :
    (s.storeRegs base rs).reg q = s.reg q := by
  rw [State.storeRegs_eq]; rfl

@[simp] theorem State.storeRegs_params (s : State) (base : Nat) (rs : List Reg) :
    (s.storeRegs base rs).params = s.params := by
  rw [State.storeRegs_eq]

/-- A byte outside the stored block is kept. -/
theorem State.memRead_storeRegs_ne (s : State) (base d : Nat) (rs : List Reg)
    (h : ∀ i ∈ rs, (base + i.val) % 4096 ≠ d % 4096) : (s.storeRegs base rs).memRead d = s.memRead d := by
  induction rs generalizing s with
  | nil => rfl
  | cons i rs ih =>
    rw [State.storeRegs_cons, ih _ fun j hj => h j (by simp [hj]), State.memRead_memWrite_ne _ _ (h i (by simp))]

/-- Two of sixteen consecutive addresses are distinct modulo 4096 (R63). -/
theorem block_address_inj {base : Nat} {i j : Reg} (h : (base + i.val) % 4096 = (base + j.val) % 4096) : i = j := by
  have hi := i.isLt
  have hj := j.isLt
  apply Fin.ext
  omega

/-- A stored register is read back at its address. -/
theorem State.memRead_storeRegs (s : State) (base : Nat) (rs : List Reg) (hn : rs.Nodup) (i : Reg) (hi : i ∈ rs) :
    (s.storeRegs base rs).memRead (base + i.val) = s.reg i := by
  induction rs generalizing s with
  | nil => simp at hi
  | cons j rs ih =>
    rw [List.nodup_cons] at hn
    rw [State.storeRegs_cons]
    rcases List.mem_cons.mp hi with rfl | hi
    · rw [State.memRead_storeRegs_ne, State.memRead_memWrite, if_pos rfl]
      intro k hk hkj
      exact hn.1 (block_address_inj hkj ▸ hk)
    · rw [ih _ hn.2 hi, State.reg_memWrite]

theorem State.wf_storeRegs {s : State} (base : Nat) (rs : List Reg) (h : Memory.wf s.params.font s.mem) :
    Memory.wf (s.storeRegs base rs).params.font (s.storeRegs base rs).mem := by
  induction rs generalizing s with
  | nil => exact h
  | cons i rs ih => rw [State.storeRegs_cons]; exact ih (State.wf_memWrite _ _ h)

/-! ### Loading registers -/

theorem State.loadRegs_cons (s : State) (base : Nat) (i : Reg) (rs : List Reg) :
    s.loadRegs base (i :: rs) = (s.setReg i (s.memRead (base + i.val))).loadRegs base rs := rfl

/-- Loading registers changes the register file and nothing else. -/
theorem State.loadRegs_eq (s : State) (base : Nat) (rs : List Reg) :
    s.loadRegs base rs = { s with V := (s.loadRegs base rs).V } := by
  induction rs generalizing s with
  | nil => rfl
  | cons i rs ih => rw [State.loadRegs_cons, ih]; rfl

@[simp] theorem State.memRead_loadRegs (s : State) (base : Nat) (rs : List Reg) (d : Nat) :
    (s.loadRegs base rs).memRead d = s.memRead d := by
  rw [State.loadRegs_eq]; rfl

/-- A register after a block load: its byte when it is in the block, else what it held. -/
theorem State.reg_loadRegs (s : State) (base : Nat) (rs : List Reg) (q : Reg) :
    (s.loadRegs base rs).reg q = if q ∈ rs then s.memRead (base + q.val) else s.reg q := by
  induction rs generalizing s with
  | nil => rfl
  | cons i rs ih =>
    rw [State.loadRegs_cons, ih, State.memRead_setReg, State.reg_setReg]
    by_cases hq : q ∈ rs
    · simp [hq]
    · by_cases hi : i = q
      · subst hi; simp [hq]
      · simp [hq, hi, Ne.symm hi]

/-! ### Copying an image -/

/-- Copying bytes changes memory and nothing else. -/
theorem State.loadBytes_eq (s : State) (base : Nat) (bs : List Byte) :
    s.loadBytes base bs = { s with mem := (s.loadBytes base bs).mem } := by
  induction bs generalizing s base with
  | nil => rfl
  | cons b bs ih => rw [State.loadBytes, ih]; rfl

theorem State.wf_loadBytes {s : State} (base : Nat) (bs : List Byte) (h : Memory.wf s.params.font s.mem) :
    Memory.wf (s.loadBytes base bs).params.font (s.loadBytes base bs).mem := by
  induction bs generalizing s base with
  | nil => exact h
  | cons b bs ih => rw [State.loadBytes]; exact ih _ (State.wf_memWrite _ _ h)

/-- A byte outside the copied range is kept. -/
theorem State.memRead_loadBytes_ne (s : State) (base d : Nat) (bs : List Byte)
    (h : ∀ j < bs.length, (base + j) % 4096 ≠ d % 4096) : (s.loadBytes base bs).memRead d = s.memRead d := by
  induction bs generalizing s base with
  | nil => rfl
  | cons b bs ih =>
    rw [State.loadBytes, ih, State.memRead_memWrite_ne]
    · simpa using h 0 (by simp)
    · intro j hj
      have := h (j + 1) (by simpa using hj)
      rwa [Nat.add_comm j 1, ← Nat.add_assoc] at this

/-! ### A result and a flag -/

/-- FLAG_LAST: VF ends as the flag, and a result register other than VF as the result (R121). -/
theorem State.reg_resultAndFlag_flagLast (s : State) (x y q : Reg) (result : Byte → Byte → Byte)
    (flag : Byte → Byte → Bool) (h : s.params.vfOrder = .flagLast) :
    (s.resultAndFlag x y result flag).reg q =
      if vf = q then flagByte (flag (s.reg x) (s.reg y))
      else if x = q then result (s.reg x) (s.reg y) else s.reg q := by
  simp only [State.resultAndFlag, h, State.reg_setVF, State.reg_setReg]

/-- AS_LISTED: VF is written first, and the result is formed from the registers as they are then (R121). -/
theorem State.reg_resultAndFlag_asListed (s : State) (x y q : Reg) (result : Byte → Byte → Byte)
    (flag : Byte → Byte → Bool) (h : s.params.vfOrder = .asListed) :
    (s.resultAndFlag x y result flag).reg q =
      let f := flagByte (flag (s.reg x) (s.reg y))
      if x = q then result (if vf = x then f else s.reg x) (if vf = y then f else s.reg y)
      else if vf = q then f else s.reg q := by
  simp only [State.resultAndFlag, h, State.reg_setVF, State.reg_setReg]

/-- Under either order only the register file changes. -/
theorem State.resultAndFlag_eq (s : State) (x y : Reg) (result : Byte → Byte → Byte) (flag : Byte → Byte → Bool) :
    s.resultAndFlag x y result flag = { s with V := (s.resultAndFlag x y result flag).V } := by
  unfold State.resultAndFlag
  split <;> rfl

/-- Registers other than x and VF are kept under either order. -/
theorem State.reg_resultAndFlag_ne (s : State) (x y q : Reg) (result : Byte → Byte → Byte)
    (flag : Byte → Byte → Bool) (hx : x ≠ q) (hf : vf ≠ q) : (s.resultAndFlag x y result flag).reg q = s.reg q := by
  cases h : s.params.vfOrder with
  | flagLast => rw [State.reg_resultAndFlag_flagLast _ _ _ _ _ _ h, if_neg hf, if_neg hx]
  | asListed => rw [State.reg_resultAndFlag_asListed _ _ _ _ _ _ h]; simp [hx, hf]

end Sys2Proof.Machine
end

