-- ==== Sys2Proof/Laws/Encoding.lean ====
section
/-! SUPPORT. The fields of an encoded word (30_encoding R71, R72). -/

namespace Sys2Proof

@[simp] theorem nibble_toNat (k : Fin 16) : (nibble k).toNat = k.val := rfl

theorem encodeA_toNat (t : BitVec 4) (nnn : Addr) : (encodeA t nnn).toNat = t.toNat * 4096 + nnn.toNat := by
  have := nnn.isLt
  simp only [encodeA, BitVec.toNat_append, Nat.shiftLeft_eq]
  rw [← Nat.shiftLeft_eq, ← Nat.shiftLeft_add_eq_or_of_lt this, Nat.shiftLeft_eq]

theorem encodeK_toNat (t : BitVec 4) (x : Reg) (kk : Byte) :
    (encodeK t x kk).toNat = t.toNat * 4096 + x.val * 256 + kk.toNat := by
  have := kk.isLt
  have := x.isLt
  simp only [encodeK, BitVec.toNat_append, nibble_toNat]
  rw [← Nat.shiftLeft_add_eq_or_of_lt (by omega : x.val < 2 ^ 4), ← Nat.shiftLeft_add_eq_or_of_lt (by omega : kk.toNat < 2 ^ 8)]
  simp only [Nat.shiftLeft_eq]
  omega

theorem encodeR_toNat (t : BitVec 4) (x y : Reg) (n : Fin 16) :
    (encodeR t x y n).toNat = t.toNat * 4096 + x.val * 256 + y.val * 16 + n.val := by
  have := x.isLt
  have := y.isLt
  have := n.isLt
  simp only [encodeR, BitVec.toNat_append, nibble_toNat]
  rw [← Nat.shiftLeft_add_eq_or_of_lt (by omega : x.val < 2 ^ 4), ← Nat.shiftLeft_add_eq_or_of_lt (by omega : y.val < 2 ^ 4),
    ← Nat.shiftLeft_add_eq_or_of_lt (by omega : n.val < 2 ^ 4)]
  simp only [Nat.shiftLeft_eq]
  omega

theorem fieldT_toNat (w : Word) : (fieldT w).toNat = w.toNat / 4096 := by
  have := w.isLt
  simp only [fieldT, BitVec.extractLsb'_toNat, Nat.shiftRight_eq_div_pow]
  omega

theorem fieldX_val (w : Word) : (fieldX w).val = w.toNat / 256 % 16 := by
  show ((w.extractLsb' 8 4).toNat) = _
  simp only [BitVec.extractLsb'_toNat, Nat.shiftRight_eq_div_pow]

theorem fieldY_val (w : Word) : (fieldY w).val = w.toNat / 16 % 16 := by
  show ((w.extractLsb' 4 4).toNat) = _
  simp only [BitVec.extractLsb'_toNat, Nat.shiftRight_eq_div_pow]

theorem fieldN_val (w : Word) : (fieldN w).val = w.toNat % 16 := by
  show ((w.extractLsb' 0 4).toNat) = _
  simp [BitVec.extractLsb'_toNat]

theorem fieldKk_toNat (w : Word) : (fieldKk w).toNat = w.toNat % 256 := by
  simp [fieldKk, BitVec.extractLsb'_toNat]

theorem fieldNnn_toNat (w : Word) : (fieldNnn w).toNat = w.toNat % 4096 := by
  simp [fieldNnn, BitVec.extractLsb'_toNat]

/-- The two bytes of a word make the word (R53). -/
@[simp] theorem wordOf_highByte_lowByte (w : Word) : wordOf (highByte w) (lowByte w) = w := by
  apply BitVec.eq_of_toNat_eq
  rw [wordOf, BitVec.toNat_append, ← Nat.shiftLeft_add_eq_or_of_lt (BitVec.isLt _)]
  simp only [highByte, lowByte, BitVec.extractLsb'_toNat, Nat.shiftLeft_eq, Nat.shiftRight_eq_div_pow]
  have := w.isLt
  omega

/-- The decoder on the two bytes of a word, whatever follows. -/
theorem decodeBytes_of_word (w : Word) (rest : List Byte) :
    decodeBytes (highByte w :: lowByte w :: rest) = .ok (decode w, rest) := by
  rw [decodeBytes, wordOf_highByte_lowByte]

end Sys2Proof
end

