-- ==== Sys2Proof/Laws/Cycle.lean ====
section
/-! SUPPORT. What a step can do, said once (40_cycle_and_dispatch R100, R108). -/

namespace Sys2Proof.Machine

/-- A halted core answers its own state (R101). -/
theorem step_halted {s : State} (h : s.fault ≠ .none) : step s = .next s := by
  simp [step, runCycle, h]

/-- A machine whose step answers its own state stays there (R101). -/
theorem run_of_step_self {M : Host.Core} {s : M.State} (h : M.step s = .next s) (n : Nat) : M.run n s = .next s := by
  induction n with
  | zero => rfl
  | succ n ih => rw [Host.Core.run, h]; exact ih

/-- A waiting core looks at the keys (R232 to R235). -/
theorem step_waiting {s : State} (hf : s.fault = .none) (hw : s.waiting = true) :
    step s = .next ((s.latchInput s.nextInput).keyWaitResolve s.keys) := by
  simp [step, runCycle, hf, hw]

/-- A running core executes the instruction at `pc` (R100, R105). -/
theorem step_running {s : State} (h : s.Running) : step s = exec s.current s.ready := by
  simp only [step, runCycle, h.1, h.2, State.current]
  rfl

/-- The three things a step can be. -/
theorem step_cases {s t : State} (h : step s = .next t) :
    (s.fault ≠ .none ∧ t = s) ∨
    (s.fault = .none ∧ s.waiting = true ∧ t = (s.latchInput s.nextInput).keyWaitResolve s.keys) ∨
    (s.Running ∧ exec s.current s.ready = .next t) := by
  by_cases hf : s.fault = .none
  · cases hw : s.waiting with
    | true =>
      rw [step_waiting hf hw] at h
      exact .inr (.inl ⟨hf, rfl, by cases h; rfl⟩)
    | false => exact .inr (.inr ⟨⟨hf, hw⟩, by rw [← step_running ⟨hf, hw⟩]; exact h⟩)
  · rw [step_halted hf] at h
    exact .inl ⟨hf, by cases h; rfl⟩

/-! ### The state an instruction executes in -/

@[simp] theorem State.ready_mem (s : State) : s.ready.mem = s.mem := rfl
@[simp] theorem State.ready_V (s : State) : s.ready.V = s.V := rfl
@[simp] theorem State.ready_I (s : State) : s.ready.I = s.I := rfl
@[simp] theorem State.ready_pc (s : State) : s.ready.pc = s.pc := rfl
@[simp] theorem State.ready_stack (s : State) : s.ready.stack = s.stack := rfl
@[simp] theorem State.ready_sp (s : State) : s.ready.sp = s.sp := rfl
@[simp] theorem State.ready_DT (s : State) : s.ready.DT = countDown s.DT := rfl
@[simp] theorem State.ready_ST (s : State) : s.ready.ST = countDown s.ST := rfl
@[simp] theorem State.ready_fb (s : State) : s.ready.fb = s.fb := rfl
@[simp] theorem State.ready_keys (s : State) : s.ready.keys = s.nextInput.keys := rfl
@[simp] theorem State.ready_waiting (s : State) : s.ready.waiting = s.waiting := rfl
@[simp] theorem State.ready_waitReg (s : State) : s.ready.waitReg = s.waitReg := rfl
@[simp] theorem State.ready_dirty (s : State) : s.ready.dirty = false := rfl
@[simp] theorem State.ready_fault (s : State) : s.ready.fault = s.fault := rfl
@[simp] theorem State.ready_params (s : State) : s.ready.params = s.params := rfl
@[simp] theorem State.ready_rndIn (s : State) : s.ready.rndIn = s.nextInput.rnd := rfl
@[simp] theorem State.reg_ready (s : State) (q : Reg) : s.ready.reg q = s.reg q := rfl
@[simp] theorem State.memRead_ready (s : State) (d : Nat) : s.ready.memRead d = s.memRead d := rfl
@[simp] theorem State.fetch_ready (s : State) : s.ready.fetch = s.fetch := rfl

/-- The counted timer as a number (R230). -/
theorem countDown_toNat (b : Byte) : (countDown b).toNat = b.toNat - 1 := by
  unfold countDown
  split
  · next h => simp [h]
  · next h =>
    have h0 : b.toNat ≠ 0 := fun h' => h (BitVec.eq_of_toNat_eq h')
    have := b.isLt
    rw [BitVec.toNat_sub]
    show (2 ^ 8 - 1 + b.toNat) % 2 ^ 8 = b.toNat - 1
    omega

/-- The ports lined up first are those of the next cycle (R40, R41; log 1). -/
theorem State.nextInput_cons {s : State} {p : Input} {rest : List Input} (h : s.inputs = p :: rest) : s.nextInput = p := by
  simp only [State.nextInput, h]

/-- No instruction writes the stored keys, the ports or the parameters (R105; R38, R41). -/
theorem exec_keeps_ports {i : Instr} {s t : State} (h : exec i s = .next t) :
    t.keys = s.keys ∧ t.rndIn = s.rndIn ∧ t.inputs = s.inputs ∧ t.drawn = s.drawn ∧ t.params = s.params := by
  cases i
  case ret =>
    simp only [exec, execRet, takeFault] at h
    split at h <;> cases h <;> exact ⟨rfl, rfl, rfl, rfl, rfl⟩
  case call nnn =>
    simp only [exec, execCall, takeFault] at h
    split at h <;> cases h <;> exact ⟨rfl, rfl, rfl, rfl, rfl⟩
  case skp x =>
    simp only [exec, execSkp, takeFault] at h
    split at h <;> cases h <;> exact ⟨rfl, rfl, rfl, rfl, rfl⟩
  case sknp x =>
    simp only [exec, execSknp, takeFault] at h
    split at h <;> cases h <;> exact ⟨rfl, rfl, rfl, rfl, rfl⟩
  case sub x y | subn x y | shr x y | shl x y =>
    cases h
    rw [State.resultAndFlag_eq]
    exact ⟨rfl, rfl, rfl, rfl, rfl⟩
  case ldMemVx x =>
    cases h
    rw [State.storeRegs_eq]
    exact ⟨rfl, rfl, rfl, rfl, rfl⟩
  case ldVxMem x =>
    cases h
    rw [State.loadRegs_eq]
    exact ⟨rfl, rfl, rfl, rfl, rfl⟩
  all_goals cases h; exact ⟨rfl, rfl, rfl, rfl, rfl⟩

/-! ### The key wait -/

/-- The least key found is pressed, and no lower one is. -/
theorem leastKey_some {keys : BitVec 16} {k : Fin 16} (h : leastKey keys = some k) :
    keys.getLsbD k.val = true ∧ ∀ j < k, keys.getLsbD j.val = false := by
  obtain ⟨hk, i, hi, hik, hlow⟩ := List.find?_eq_some_iff_getElem.mp h
  refine ⟨hk, fun j hj => ?_⟩
  have hki : k.val = i := by simpa using congrArg Fin.val hik.symm
  have := hlow j.val (by omega)
  simpa using this

theorem leastKey_none {keys : BitVec 16} (h : leastKey keys = none) (k : Fin 16) : keys.getLsbD k.val = false := by
  have := List.find?_eq_none.mp h k (List.mem_finRange k)
  simpa using this

/-- Resolving a wait writes one register and the flag, or nothing. -/
theorem State.keyWaitResolve_cases (s : State) (keysPrev : BitVec 16) :
    (leastKey (s.qualifyingKeys keysPrev) = none ∧ s.keyWaitResolve keysPrev = s) ∨
    ∃ k, leastKey (s.qualifyingKeys keysPrev) = some k ∧
      s.keyWaitResolve keysPrev = { s.setReg s.waitReg (BitVec.ofNat 8 k.val) with waiting := false } := by
  unfold State.keyWaitResolve
  cases h : leastKey (s.qualifyingKeys keysPrev) with
  | none => exact .inl ⟨rfl, rfl⟩
  | some k => exact .inr ⟨k, rfl, rfl⟩

/-! ### Placing a word -/

/-- The next fetch reads the placed word, big-endian, also where `pc + 1` wraps (log 16). -/
theorem State.fetch_placeWord (s : State) (w : Word) : (s.placeWord w).fetch = w := by
  have h1 : (s.placeWord w).memRead s.pc.toNat = highByte w := by
    show ((s.memWrite s.pc.toNat (highByte w)).memWrite (s.pc.toNat + 1) (lowByte w)).memRead s.pc.toNat = _
    rw [State.memRead_memWrite_ne _ _ (by omega), State.memRead_memWrite, if_pos rfl]
  have h2 : (s.placeWord w).memRead (s.pc.toNat + 1) = lowByte w := by
    show ((s.memWrite s.pc.toNat (highByte w)).memWrite (s.pc.toNat + 1) (lowByte w)).memRead (s.pc.toNat + 1) = _
    rw [State.memRead_memWrite, if_pos rfl]
  have hpc : (s.placeWord w).pc = s.pc := rfl
  rw [State.fetch, hpc, h1, h2, wordOf_highByte_lowByte]

/-- Whatever the state, the step after a word is placed executes it. -/
theorem step_placeWord (s : State) (w : Word) : step (s.placeWord w) = exec (decode w) (s.placeWord w).ready := by
  rw [step_running ⟨rfl, rfl⟩, State.current, State.fetch_placeWord]

end Sys2Proof.Machine
end

