-- ==== Sys2Proof/Laws/Flags.lean ====
section
/-! SUPPORT. The flag computations and the operand forms as numbers (41_alu R128 to R132, R144; 43_fx_memory R185 to
R188; 10_state R25). -/

namespace Sys2Proof.Machine

/-! ### Flags -/

theorem flagByte_carryFlag (a b : Byte) : (flagByte (carryFlag a b)).toNat = if 255 < a.toNat + b.toNat then 1 else 0 := by
  by_cases h : 255 < a.toNat + b.toNat <;> simp [flagByte, carryFlag, h]

theorem flagByte_greaterFlag (a b : Byte) : (flagByte (greaterFlag a b)).toNat = if b.toNat < a.toNat then 1 else 0 := by
  by_cases h : b.toNat < a.toNat <;> simp [flagByte, greaterFlag, h]

theorem flagByte_indexFlag (n : Nat) : (flagByte (indexFlag n)).toNat = if 0x0F00 < n then 1 else 0 := by
  by_cases h : 0x0F00 < n <;> simp [flagByte, indexFlag, h]

theorem flagByte_lowBit : ∀ a : Byte, (flagByte (lowBit a)).toNat = a.toNat % 2 := by decide

theorem flagByte_highBit : ∀ a : Byte, (flagByte (highBit a)).toNat = a.toNat / 128 := by decide

/-! ### Arithmetic -/

theorem sub_toNat (a b : Byte) : (a - b).toNat = (a.toNat + 256 - b.toNat) % 256 := by
  rw [BitVec.toNat_sub]; omega

theorem shiftRight_toNat : ∀ a : Byte, (a >>> 1).toNat = a.toNat / 2 := by decide

theorem shiftLeft_toNat : ∀ a : Byte, (a <<< 1).toNat = 2 * a.toNat % 256 := by decide

theorem glyphAddress_toNat (v : Byte) : (glyphAddress v).toNat = v.toNat * 5 := by
  have := v.isLt
  simp only [glyphAddress, BitVec.toNat_ofNat]; omega

theorem hundreds_toNat (v : Byte) : (hundreds v).toNat = v.toNat / 100 := by
  have := v.isLt
  simp only [hundreds, BitVec.toNat_ofNat]; omega

theorem tens_toNat (v : Byte) : (tens v).toNat = v.toNat / 10 % 10 := by
  have := v.isLt
  simp only [tens, BitVec.toNat_ofNat]; omega

theorem ones_toNat (v : Byte) : (ones v).toNat = v.toNat % 10 := by
  have := v.isLt
  simp only [ones, BitVec.toNat_ofNat]; omega

/-! ### The program counter -/

theorem State.pc_add_two (s : State) : (s.pc + 2).toNat = s.pcPlus 2 := by
  simp [State.pcPlus, State.value, BitVec.toNat_add]

theorem State.pc_add_four (s : State) : (s.pc + 4).toNat = s.pcPlus 4 := by
  simp [State.pcPlus, State.value, BitVec.toNat_add]

/-- Moving `pc` touches `pc` alone. -/
theorem keepsAllBut_setPc (s : State) (a : Addr) : KeepsAllBut (fun p => p = .pc) s (s.setPc a) := by
  refine ⟨fun p hp => ?_, rfl, rfl, rfl, rfl⟩
  cases p <;> first | rfl | exact absurd rfl hp

end Sys2Proof.Machine
end

