-- ==== Sys2Proof/Laws/PerInstr.lean ====
section
/-! SUPPORT. Facts about every instruction as syntax, one lemma a constructor. -/

/-! ### TopNibble: the word of an instruction lies in the family its pattern names (30_encoding R74, R75). -/

namespace Sys2Proof.Laws.TopNibble

/-- The first digit of each row's pattern (R75); an unmapped word's is its own. -/
def family : Instr → Nat
  | .cls => 0x0
  | .ret => 0x0
  | .jp _ => 0x1
  | .call _ => 0x2
  | .seVxKk _ _ => 0x3
  | .sneVxKk _ _ => 0x4
  | .seVxVy _ _ => 0x5
  | .ldVxKk _ _ => 0x6
  | .addVxKk _ _ => 0x7
  | .ldVxVy _ _ => 0x8
  | .or _ _ => 0x8
  | .and _ _ => 0x8
  | .xor _ _ => 0x8
  | .addVxVy _ _ => 0x8
  | .sub _ _ => 0x8
  | .shr _ _ => 0x8
  | .subn _ _ => 0x8
  | .shl _ _ => 0x8
  | .sneVxVy _ _ => 0x9
  | .ldINnn _ => 0xA
  | .jpV0Nnn _ => 0xB
  | .rnd _ _ => 0xC
  | .drw _ _ _ => 0xD
  | .skp _ => 0xE
  | .sknp _ => 0xE
  | .ldVxDt _ => 0xF
  | .ldVxK _ => 0xF
  | .ldDtVx _ => 0xF
  | .ldStVx _ => 0xF
  | .addIVx _ => 0xF
  | .ldFVx _ => 0xF
  | .ldBVx _ => 0xF
  | .ldMemVx _ => 0xF
  | .ldVxMem _ => 0xF
  | .unmapped w => w.toNat / 4096

/-- The top nibble of the encoded word is the pattern's first digit. -/
def Statement (i : Instr) : Prop := (fieldT (encode i)).toNat = family i

theorem of_encodeA (t : BitVec 4) (nnn : Addr) : (fieldT (encodeA t nnn)).toNat = t.toNat := by
  have := nnn.isLt
  rw [fieldT_toNat, encodeA_toNat]; omega

theorem of_encodeK (t : BitVec 4) (x : Reg) (kk : Byte) : (fieldT (encodeK t x kk)).toNat = t.toNat := by
  have := x.isLt
  have := kk.isLt
  rw [fieldT_toNat, encodeK_toNat]; omega

theorem of_encodeR (t : BitVec 4) (x y : Reg) (n : Fin 16) : (fieldT (encodeR t x y n)).toNat = t.toNat := by
  have := x.isLt
  have := y.isLt
  have := n.isLt
  rw [fieldT_toNat, encodeR_toNat]; omega

theorem cls : Statement .cls := rfl
theorem ret : Statement .ret := rfl
theorem jp (nnn : Addr) : Statement (.jp nnn) := of_encodeA _ _
theorem call (nnn : Addr) : Statement (.call nnn) := of_encodeA _ _
theorem seVxKk (x : Reg) (kk : Byte) : Statement (.seVxKk x kk) := of_encodeK _ _ _
theorem sneVxKk (x : Reg) (kk : Byte) : Statement (.sneVxKk x kk) := of_encodeK _ _ _
theorem seVxVy (x : Reg) (y : Reg) : Statement (.seVxVy x y) := of_encodeR _ _ _ _
theorem ldVxKk (x : Reg) (kk : Byte) : Statement (.ldVxKk x kk) := of_encodeK _ _ _
theorem addVxKk (x : Reg) (kk : Byte) : Statement (.addVxKk x kk) := of_encodeK _ _ _
theorem ldVxVy (x : Reg) (y : Reg) : Statement (.ldVxVy x y) := of_encodeR _ _ _ _
theorem or (x : Reg) (y : Reg) : Statement (.or x y) := of_encodeR _ _ _ _
theorem and (x : Reg) (y : Reg) : Statement (.and x y) := of_encodeR _ _ _ _
theorem xor (x : Reg) (y : Reg) : Statement (.xor x y) := of_encodeR _ _ _ _
theorem addVxVy (x : Reg) (y : Reg) : Statement (.addVxVy x y) := of_encodeR _ _ _ _
theorem sub (x : Reg) (y : Reg) : Statement (.sub x y) := of_encodeR _ _ _ _
theorem shr (x : Reg) (y : Reg) : Statement (.shr x y) := of_encodeR _ _ _ _
theorem subn (x : Reg) (y : Reg) : Statement (.subn x y) := of_encodeR _ _ _ _
theorem shl (x : Reg) (y : Reg) : Statement (.shl x y) := of_encodeR _ _ _ _
theorem sneVxVy (x : Reg) (y : Reg) : Statement (.sneVxVy x y) := of_encodeR _ _ _ _
theorem ldINnn (nnn : Addr) : Statement (.ldINnn nnn) := of_encodeA _ _
theorem jpV0Nnn (nnn : Addr) : Statement (.jpV0Nnn nnn) := of_encodeA _ _
theorem rnd (x : Reg) (kk : Byte) : Statement (.rnd x kk) := of_encodeK _ _ _
theorem drw (x : Reg) (y : Reg) (n : Fin 16) : Statement (.drw x y n) := of_encodeR _ _ _ _
theorem skp (x : Reg) : Statement (.skp x) := of_encodeK _ _ _
theorem sknp (x : Reg) : Statement (.sknp x) := of_encodeK _ _ _
theorem ldVxDt (x : Reg) : Statement (.ldVxDt x) := of_encodeK _ _ _
theorem ldVxK (x : Reg) : Statement (.ldVxK x) := of_encodeK _ _ _
theorem ldDtVx (x : Reg) : Statement (.ldDtVx x) := of_encodeK _ _ _
theorem ldStVx (x : Reg) : Statement (.ldStVx x) := of_encodeK _ _ _
theorem addIVx (x : Reg) : Statement (.addIVx x) := of_encodeK _ _ _
theorem ldFVx (x : Reg) : Statement (.ldFVx x) := of_encodeK _ _ _
theorem ldBVx (x : Reg) : Statement (.ldBVx x) := of_encodeK _ _ _
theorem ldMemVx (x : Reg) : Statement (.ldMemVx x) := of_encodeK _ _ _
theorem ldVxMem (x : Reg) : Statement (.ldVxMem x) := of_encodeK _ _ _
theorem unmapped (w : Word) : Statement (.unmapped w) := fieldT_toNat w

end Sys2Proof.Laws.TopNibble
end

