-- ==== Sys2Proof/Laws/Sprite.lean ====
section
/-! SUPPORT. What the sprite loops do to one pixel, said once for a pixel and once for a row (44_sprite R211 to
R213). -/

namespace Sys2Proof.Machine

theorem Canvas.pixel_plot (k : Canvas) (row col : Nat) (bit : Bool) (r : Fin 32) (c : Fin 64) :
    (k.plot row col bit).fb.pixel r c =
      (k.fb.pixel r c ^^ (bit && decide (r.val = row % 32) && decide (c.val = col % 64))) := by
  cases bit with
  | false => simp [Canvas.plot]
  | true =>
    simp only [Canvas.plot, if_true, Framebuffer.pixel_flip, Bool.true_and]
    by_cases h : Fin.ofNat 32 row = r ∧ Fin.ofNat 64 col = c
    · obtain ⟨rfl, rfl⟩ := h
      simp
    · rw [if_neg h]
      have : (decide (r.val = row % 32) && decide (c.val = col % 64)) = false := by
        rw [Bool.eq_false_iff]
        simp only [ne_eq, Bool.and_eq_true, decide_eq_true_eq]
        exact fun h' => h ⟨Fin.ext h'.1.symm, Fin.ext h'.2.symm⟩
      rw [this, Bool.xor_false]

theorem Canvas.collide_plot (k : Canvas) (row col : Nat) (bit : Bool) :
    (k.plot row col bit).collide =
      (k.collide || (bit && k.fb.pixel (Fin.ofNat 32 row) (Fin.ofNat 64 col))) := by
  cases bit <;> simp [Canvas.plot]

/-- Two changes of one pixel, of which at most one happens, are one change. -/
theorem pixel_change_trans {a b c : Bool} {P Q : Prop} (h : a ≠ b ↔ P) (h' : b ≠ c ↔ Q) (hd : P → ¬ Q) :
    a ≠ c ↔ Q ∨ P := by
  cases a <;> cases b <;> cases c <;> simp_all

/-- The first `m` pixels of one sprite row light pixel (r, c). -/
def RowLights (row col : Nat) (b : Byte) (m : Nat) (r : Fin 32) (c : Fin 64) : Prop :=
  ∃ j < m, r.val = row % 32 ∧ c.val = (col + j) % 64 ∧ b.getLsbD (7 - j) = true

theorem rowLights_succ (row col : Nat) (b : Byte) (m : Nat) (r : Fin 32) (c : Fin 64) :
    RowLights row col b (m + 1) r c ↔ RowLights row col b m r c ∨
      (r.val = row % 32 ∧ c.val = (col + m) % 64 ∧ b.getLsbD (7 - m) = true) := by
  constructor
  · rintro ⟨j, hj, h⟩
    rcases Nat.lt_succ_iff_lt_or_eq.mp hj with hj | rfl
    · exact .inl ⟨j, hj, h⟩
    · exact .inr h
  · rintro (⟨j, hj, h⟩ | h)
    · exact ⟨j, by omega, h⟩
    · exact ⟨m, by omega, h⟩

/-- The first `m` steps of the inner loop: the lit pixels flip, and the collision flag is raised by one that was set. -/
theorem Canvas.plotRow_prefix (k : Canvas) (row col : Nat) (b : Byte) (m : Nat) (hm : m ≤ 8) :
    let k' := (List.range m).foldl (fun k c => k.plot row (col + c) (b.getLsbD (7 - c))) k
    (∀ r c, k'.fb.pixel r c ≠ k.fb.pixel r c ↔ RowLights row col b m r c) ∧
    (k'.collide = true ↔ k.collide = true ∨ ∃ r c, RowLights row col b m r c ∧ k.fb.pixel r c = true) := by
  induction m with
  | zero => simp [RowLights]
  | succ m ih =>
    obtain ⟨h1, h2⟩ := ih (by omega)
    intro k'
    have hk : k' = ((List.range m).foldl (fun k c => k.plot row (col + c) (b.getLsbD (7 - c))) k).plot row (col + m)
        (b.getLsbD (7 - m)) := by
      simp [k', List.range_succ]
    generalize (List.range m).foldl (fun k c => k.plot row (col + c) (b.getLsbD (7 - c))) k = q at *
    rw [hk]
    have hs := rowLights_succ row col b m
    have hd : ∀ r c, (r.val = row % 32 ∧ c.val = (col + m) % 64 ∧ b.getLsbD (7 - m) = true) →
        ¬ RowLights row col b m r c := by
      rintro r c ⟨_, h, _⟩ ⟨j, hj, _, h', _⟩
      omega
    constructor
    · intro r c
      rw [hs]
      refine pixel_change_trans ?_ (h1 r c) (hd r c)
      rw [Canvas.pixel_plot]
      generalize q.fb.pixel r c = p
      cases p <;> simp [and_assoc, and_comm, and_left_comm]
    · rw [Canvas.collide_plot, Bool.or_eq_true, h2, Bool.and_eq_true]
      have hp : b.getLsbD (7 - m) = true →
          q.fb.pixel (Fin.ofNat 32 row) (Fin.ofNat 64 (col + m)) =
            k.fb.pixel (Fin.ofNat 32 row) (Fin.ofNat 64 (col + m)) := by
        intro hb
        have := hd (Fin.ofNat 32 row) (Fin.ofNat 64 (col + m)) ⟨rfl, rfl, hb⟩
        rw [← h1] at this
        simpa using this
      constructor
      · rintro ((h | ⟨r, c, h, h'⟩) | ⟨hb, h⟩)
        · exact .inl h
        · exact .inr ⟨r, c, (hs r c).2 (.inl h), h'⟩
        · exact .inr ⟨_, _, (hs _ _).2 (.inr ⟨rfl, rfl, hb⟩), by rw [← hp hb]; exact h⟩
      · rintro (h | ⟨r, c, h, h'⟩)
        · exact .inl (.inl h)
        · rcases (hs r c).1 h with h | ⟨e1, e2, e3⟩
          · exact .inl (.inr ⟨r, c, h, h'⟩)
          · refine .inr ⟨e3, ?_⟩
            rw [hp e3]
            have hr : r = Fin.ofNat 32 row := Fin.ext e1
            have hc : c = Fin.ofNat 64 (col + m) := Fin.ext e2
            simpa [hr, hc] using h'

/-- One sprite row: its lit pixels flip, and the collision flag is raised by one that was set (R211). -/
theorem Canvas.plotRow_spec (k : Canvas) (row col : Nat) (b : Byte) :
    (∀ r c, (k.plotRow row col b).fb.pixel r c ≠ k.fb.pixel r c ↔ RowLights row col b 8 r c) ∧
    ((k.plotRow row col b).collide = true ↔
      k.collide = true ∨ ∃ r c, RowLights row col b 8 r c ∧ k.fb.pixel r c = true) :=
  Canvas.plotRow_prefix k row col b 8 (Nat.le_refl 8)

/-- One more row of the outer loop (R211). -/
theorem State.plotSprite_succ (s : State) (x0 y0 : Byte) (base n : Nat) :
    s.plotSprite x0 y0 base (n + 1) =
      (s.plotSprite x0 y0 base n).plotRow (y0.toNat + n) x0.toNat (s.memRead (base + n)) := by
  simp [State.plotSprite, List.range_succ]

end Sys2Proof.Machine
end

