-- ==== Sys2Proof/Tests/Slice0.lean ====
section
/-! SUPPORT. Tests. Every expected value is from spec/95_test_vectors.md (its vector is named) or from the rule that is
named; none is this model's own answer. The last part holds, for each statement with hypotheses, a state that meets them. -/

open Sys2Proof Sys2Proof.Machine

/-! ## Well-formedness (R76) -/

theorem test_wellFormed_refuses_mapped_word : Instr.wellFormed (.unmapped 0x00E0) = false := by decide
theorem test_wellFormed_refuses_first_row_of_families :
    Instr.wellFormed (.unmapped 0x5120) = false ∧ Instr.wellFormed (.unmapped 0x812E) = false ∧
    Instr.wellFormed (.unmapped 0x9120) = false ∧ Instr.wellFormed (.unmapped 0xE1A1) = false ∧
    Instr.wellFormed (.unmapped 0xF165) = false ∧ Instr.wellFormed (.unmapped 0x1000) = false := by decide
theorem test_wellFormed_accepts_unmapped_word : Instr.wellFormed (.unmapped 0x800F) = true := by decide

/-! ## Decoding: words written out from the layouts and fixed bits of R72 and R75 -/

theorem test_decode_family_0 : decode 0b0000_0000_1110_0000#16 = .cls ∧ decode 0b0000_0000_1110_1110#16 = .ret := by
  decide
theorem test_decode_addresses :
    decode 0b0001_1010_1011_1100#16 = .jp 0xABC ∧ decode 0b0010_1010_1011_1100#16 = .call 0xABC ∧
    decode 0b1010_1010_1011_1100#16 = .ldINnn 0xABC ∧ decode 0b1011_1010_1011_1100#16 = .jpV0Nnn 0xABC := by decide
theorem test_decode_immediates :
    decode 0b0011_1100_0101_1010#16 = .seVxKk 0xC 0x5A ∧ decode 0b0100_1100_0101_1010#16 = .sneVxKk 0xC 0x5A ∧
    decode 0b0110_1100_0101_1010#16 = .ldVxKk 0xC 0x5A ∧ decode 0b0111_1100_0101_1010#16 = .addVxKk 0xC 0x5A ∧
    decode 0b1100_1100_0101_1010#16 = .rnd 0xC 0x5A := by decide
theorem test_decode_register_skips :
    decode 0b0101_0011_1010_0000#16 = .seVxVy 3 0xA ∧ decode 0b1001_0011_1010_0000#16 = .sneVxVy 3 0xA := by decide
theorem test_decode_family_8 :
    decode 0b1000_0011_1010_0000#16 = .ldVxVy 3 0xA ∧ decode 0b1000_0011_1010_0001#16 = .or 3 0xA ∧
    decode 0b1000_0011_1010_0010#16 = .and 3 0xA ∧ decode 0b1000_0011_1010_0011#16 = .xor 3 0xA ∧
    decode 0b1000_0011_1010_0100#16 = .addVxVy 3 0xA ∧ decode 0b1000_0011_1010_0101#16 = .sub 3 0xA ∧
    decode 0b1000_0011_1010_0110#16 = .shr 3 0xA ∧ decode 0b1000_0011_1010_0111#16 = .subn 3 0xA ∧
    decode 0b1000_0011_1010_1110#16 = .shl 3 0xA := by decide
theorem test_decode_draw : decode 0b1101_0011_1010_0110#16 = .drw 3 0xA 6 := by decide
theorem test_decode_family_E :
    decode 0b1110_0110_1001_1110#16 = .skp 6 ∧ decode 0b1110_0110_1010_0001#16 = .sknp 6 := by decide
theorem test_decode_family_F :
    decode 0b1111_0110_0000_0111#16 = .ldVxDt 6 ∧ decode 0b1111_0110_0000_1010#16 = .ldVxK 6 ∧
    decode 0b1111_0110_0001_0101#16 = .ldDtVx 6 ∧ decode 0b1111_0110_0001_1000#16 = .ldStVx 6 ∧
    decode 0b1111_0110_0001_1110#16 = .addIVx 6 ∧ decode 0b1111_0110_0010_1001#16 = .ldFVx 6 ∧
    decode 0b1111_0110_0011_0011#16 = .ldBVx 6 ∧ decode 0b1111_0110_0101_0101#16 = .ldMemVx 6 ∧
    decode 0b1111_0110_0110_0101#16 = .ldVxMem 6 := by decide
/-- The unmapped words of 95_test_vectors 2.1. -/
theorem test_decode_unmapped : [0x0000, 0x01E0, 0x0EEE, 0x0123, 0x5121, 0x9121, 0x8128, 0x800F, 0xE09F, 0xF000, 0xFFFF].all
    (fun n => decode (BitVec.ofNat 16 n) = .unmapped (BitVec.ofNat 16 n)) = true := by decide
theorem test_decode_bytes_big_endian : decodeBytes [0x12, 0x04, 0xFF] = .ok (.jp 0x204, [0xFF]) := by decide
theorem test_decode_bytes_truncated :
    decodeBytes [0x12] = .error .truncated ∧ decodeBytes [] = .error .truncated := by decide
theorem test_encode_words :
    encode (.drw 3 0xA 6) = 0xD3A6 ∧ encode (.rnd 0xC 0x5A) = 0xCC5A ∧ encode (.call 0xABC) = 0x2ABC ∧
    encodeBytes (.ldVxMem 6) = [0xF6, 0x65] := by decide
theorem test_decodeTableWord :
    decodeTableWord 16 0xD3A6 = some (.drw 3 0xA 6) ∧ decodeTableWord 16 0 = some (.unmapped 0) := by decide

/-! ## One step each

`at200 w rs` is the start state of 95_test_vectors section 0: reset, the word at 0x200, the registers of `rs`, no key
pressed and `rnd_in` 0 in the one cycle lined up. -/

def at200 (w : Word) (rs : List (Reg × Byte)) : State :=
  rs.foldl (fun s p => s.setReg p.1 p.2) ({ State.reset with inputs := [⟨0, 0⟩] }.placeWord w)

/-- The state after one step, looked at through `f`. -/
def sees {α : Type} (s : State) (f : State → α) : Option α :=
  match step s with
  | .next t => some (f t)
  | _ => none

/-- Vector A1. -/
theorem test_ldVxKk : sees (at200 0x6A7B []) (fun t => (t.reg 0xA, t.pc)) = some (0x7B, 0x202) := by decide
/-- Vectors A2, A3. -/
theorem test_addVxKk_wraps :
    sees (at200 0x7311 [(3, 0xF0), (15, 0x55)]) (fun t => (t.reg 3, t.reg 15)) = some (0x01, 0x55) ∧
    sees (at200 0x75FF [(5, 0x01), (15, 0x55)]) (fun t => (t.reg 5, t.reg 15)) = some (0x00, 0x55) := by decide
/-- Vector A4. -/
theorem test_ldVxVy :
    sees (at200 0x8120 [(1, 0x12), (2, 0x34)]) (fun t => (t.reg 1, t.reg 2)) = some (0x34, 0x34) := by decide
/-- Vector A5. -/
theorem test_or_keeps_vf : sees (at200 0x8121 [(1, 0x0F), (2, 0xF0), (15, 0x55)])
    (fun t => (t.reg 1, t.reg 15)) = some (0xFF, 0x55) := by decide
/-- Vector A6. -/
theorem test_and : sees (at200 0x8122 [(1, 0x3C), (2, 0x0F), (15, 0x55)])
    (fun t => (t.reg 1, t.reg 15)) = some (0x0C, 0x55) := by decide
/-- Vector A7. -/
theorem test_xor : sees (at200 0x8123 [(1, 0xFF), (2, 0x0F), (15, 0x55)])
    (fun t => (t.reg 1, t.reg 15)) = some (0xF0, 0x55) := by decide
/-- Vectors A8b, A8c, A12. -/
theorem test_addVxVy_carry :
    sees (at200 0x8124 [(1, 0xFF), (2, 0xFF)]) (fun t => (t.reg 1, t.reg 15)) = some (0xFE, 1) ∧
    sees (at200 0x8124 [(1, 0x7F), (2, 0x80)]) (fun t => (t.reg 1, t.reg 15)) = some (0xFF, 0) ∧
    sees (at200 0x8114 [(1, 0x81)]) (fun t => (t.reg 1, t.reg 15)) = some (0x02, 1) := by decide
/-- The state with AS_LISTED for VF_ORDER. -/
def asListed (s : State) : State := { s with params := { s.params with vfOrder := .asListed } }

/-- Vector A21, both orders. -/
theorem test_addVxVy_into_vf :
    sees (at200 0x8F14 [(15, 0xFF), (1, 0x01)]) (fun t => t.reg 15) = some 1 ∧
    sees (asListed (at200 0x8F14 [(15, 0xFF), (1, 0x01)])) (fun t => t.reg 15) = some 1 := by decide
/-- Vectors S3 (VX = VY) and A9. -/
theorem test_sub_flag_is_strict :
    sees (at200 0x8125 [(1, 0x05), (2, 0x05)]) (fun t => (t.reg 1, t.reg 15)) = some (0, 0) ∧
    sees (at200 0x8125 [(1, 0x00), (2, 0xFF)]) (fun t => (t.reg 1, t.reg 15)) = some (0x01, 0) := by decide
/-- Vectors A15, A16, both orders. -/
theorem test_sub_vf_operand :
    sees (at200 0x8F15 [(15, 0x10), (1, 0x01)]) (fun t => t.reg 15) = some 0x01 ∧
    sees (asListed (at200 0x8F15 [(15, 0x10), (1, 0x01)])) (fun t => t.reg 15) = some 0x00 ∧
    sees (at200 0x81F5 [(15, 0x03), (1, 0x05)]) (fun t => (t.reg 1, t.reg 15)) = some (0x02, 0x01) ∧
    sees (asListed (at200 0x81F5 [(15, 0x03), (1, 0x05)])) (fun t => (t.reg 1, t.reg 15)) = some (0x04, 0x01) := by
  decide
/-- Vectors A10a, A10d. -/
theorem test_shr_ignores_y :
    sees (at200 0x8106 [(1, 0x05), (0, 0x77)]) (fun t => (t.reg 1, t.reg 15, t.reg 0)) = some (0x02, 1, 0x77) ∧
    sees (at200 0x8106 [(1, 0x01)]) (fun t => (t.reg 1, t.reg 15)) = some (0x00, 1) := by decide
/-- Vector A17, both orders. -/
theorem test_shr_vf_operand :
    sees (at200 0x8F06 [(15, 0x03)]) (fun t => t.reg 15) = some 0x01 ∧
    sees (asListed (at200 0x8F06 [(15, 0x03)])) (fun t => t.reg 15) = some 0x00 := by decide
/-- Vectors S3 (VY < VX) and S3 (VX = VY). -/
theorem test_subn_flag_is_strict :
    sees (at200 0x8127 [(1, 0x10), (2, 0x01)]) (fun t => (t.reg 1, t.reg 15)) = some (0xF1, 0) ∧
    sees (at200 0x8127 [(1, 0x05), (2, 0x05)]) (fun t => (t.reg 1, t.reg 15)) = some (0, 0) := by decide
/-- Vectors A19, A20, both orders. -/
theorem test_subn_vf_operand :
    sees (at200 0x8F17 [(15, 0x01), (1, 0x10)]) (fun t => t.reg 15) = some 0x01 ∧
    sees (asListed (at200 0x8F17 [(15, 0x01), (1, 0x10)])) (fun t => t.reg 15) = some 0x0F ∧
    sees (at200 0x81F7 [(15, 0x10), (1, 0x01)]) (fun t => (t.reg 1, t.reg 15)) = some (0x0F, 0x01) ∧
    sees (asListed (at200 0x81F7 [(15, 0x10), (1, 0x01)])) (fun t => (t.reg 1, t.reg 15)) = some (0x00, 0x01) := by
  decide
/-- Vectors A11a, A11b. -/
theorem test_shl :
    sees (at200 0x810E [(1, 0x81)]) (fun t => (t.reg 1, t.reg 15)) = some (0x02, 1) ∧
    sees (at200 0x810E [(1, 0x40)]) (fun t => (t.reg 1, t.reg 15)) = some (0x80, 0) := by decide
/-- Vector A18, both orders. -/
theorem test_shl_vf_operand :
    sees (at200 0x8F0E [(15, 0x81)]) (fun t => t.reg 15) = some 0x01 ∧
    sees (asListed (at200 0x8F0E [(15, 0x81)])) (fun t => t.reg 15) = some 0x02 := by decide
/-- Vector A14a: `rnd_in` is the byte lined up for this cycle. -/
theorem test_rnd_masks :
    sees { at200 0xC30F [] with inputs := [⟨0, 0xA7⟩] } (fun t => t.reg 3) = some 0x07 := by decide

/-- A state of `at200` with return addresses on the stack. -/
def withStack (s : State) (n : Fin 17) (a : Addr) : State := { s with stack := Vector.replicate 16 a, sp := n }

/-- Vectors B2, B3: underflow, and an odd return address. -/
theorem test_ret :
    sees (at200 0x00EE []) (fun t => (t.fault, t.pc, t.sp)) = some (.callStackUnderflow, 0x200, 0) ∧
    sees (withStack (at200 0x00EE []) 2 0x301) (fun t => (t.pc, t.sp, t.fault)) = some (0x301, 1, .none) := by decide
/-- Vector B5. -/
theorem test_jp_self : sees (at200 0x1200 []) (fun t => t.pc) = some 0x200 := by decide
/-- Vectors B6, B7. -/
theorem test_call :
    sees (at200 0x2210 []) (fun t => (t.stack[0], t.sp, t.pc)) = some (0x202, 1, 0x210) ∧
    sees (withStack (at200 0x2210 []) 16 0x123) (fun t => (t.fault, t.pc, t.sp, t.stack[15])) =
      some (.callStackOverflow, 0x200, 16, 0x123) := by decide
/-- Vector B8: the return address wraps. -/
theorem test_call_at_top :
    sees ({ State.reset with pc := 0xFFE }.placeWord 0x2300) (fun t => (t.stack[0], t.sp, t.pc)) =
      some (0x000, 1, 0x300) := by decide
/-- Vectors B9a, B10. -/
theorem test_seVxKk :
    sees (at200 0x3112 [(1, 0x12)]) (fun t => t.pc) = some 0x204 ∧
    sees ({ State.reset with pc := 0xFFE }.placeWord 0x3100) (fun t => t.pc) = some 0x002 := by decide
/-- Vectors B11a, B11b. -/
theorem test_sneVxKk :
    sees (at200 0x4112 [(1, 0x12)]) (fun t => t.pc) = some 0x202 ∧
    sees (at200 0x4113 [(1, 0x12)]) (fun t => t.pc) = some 0x204 := by decide
/-- Vectors B12a, B12b. -/
theorem test_seVxVy :
    sees (at200 0x5120 [(1, 0x07), (2, 0x07)]) (fun t => t.pc) = some 0x204 ∧
    sees (at200 0x5120 [(1, 0x07), (2, 0x08)]) (fun t => t.pc) = some 0x202 := by decide
/-- Vectors B12c, B13c and 95_test_vectors 2.1. -/
theorem test_unmapped_is_no_skip :
    sees (at200 0x5121 [(1, 0x07), (2, 0x07)]) (fun t => t.pc) = some 0x202 ∧
    sees (at200 0x9121 [(1, 0x07), (2, 0x08)]) (fun t => t.pc) = some 0x202 ∧
    sees (at200 0x8128 [(1, 0x01), (2, 0x02)]) (fun t => (t.pc, t.reg 1, t.reg 2)) = some (0x202, 1, 2) := by decide
/-- Vectors B13a, B13b. -/
theorem test_sneVxVy :
    sees (at200 0x9120 [(1, 0x07), (2, 0x08)]) (fun t => t.pc) = some 0x204 ∧
    sees (at200 0x9120 [(1, 0x07), (2, 0x07)]) (fun t => t.pc) = some 0x202 := by decide
/-- Vectors B14a, B14b. -/
theorem test_jpV0Nnn :
    sees (at200 0xB300 [(0, 0x10)]) (fun t => t.pc) = some 0x310 ∧
    sees (at200 0xBFFF [(0, 0x02)]) (fun t => t.pc) = some 0x001 := by decide
/-- Vectors B15a, B15c. -/
theorem test_skp :
    sees { at200 0xE19E [(1, 0x07)] with inputs := [⟨0x0080, 0⟩] } (fun t => t.pc) = some 0x204 ∧
    sees { at200 0xE19E [(1, 0x10)] with inputs := [⟨0xFFFF, 0⟩] } (fun t => (t.fault, t.pc, t.keys)) =
      some (.keyIndexOutOfRange, 0x200, 0xFFFF) := by decide
/-- Vectors B16a, B16b. -/
theorem test_sknp :
    sees { at200 0xE1A1 [(1, 0x07)] with inputs := [⟨0x0080, 0⟩] } (fun t => t.pc) = some 0x202 ∧
    sees (at200 0xE1A1 [(1, 0x07)]) (fun t => t.pc) = some 0x204 := by decide

/-- Vector F1. -/
theorem test_ldINnn : sees (at200 0xA300 []) (fun t => (t.I, t.pc)) = some (0x300, 0x202) := by decide
/-- Vectors F2a, F2b: the timer is counted first. -/
theorem test_ldVxDt :
    sees { at200 0xF107 [] with DT := 3 } (fun t => (t.DT, t.reg 1)) = some (2, 2) ∧
    sees (at200 0xF107 []) (fun t => (t.DT, t.reg 1)) = some (0, 0) := by decide
/-- Vector F3. -/
theorem test_ldVxK : sees (at200 0xF20A [(2, 0x99)]) (fun t => (t.waiting, t.waitReg, t.pc, t.reg 2)) =
    some (true, 2, 0x202, 0x99) := by decide
/-- Vector F4. -/
theorem test_ldDtVx : sees (at200 0xF015 [(0, 0x05)]) (fun t => t.DT) = some 5 := by decide
/-- Vectors F5a, F5b. -/
theorem test_ldStVx :
    sees (at200 0xF018 [(0, 0x02)]) (fun t => (t.ST, t.soundOut)) = some (2, true) ∧
    sees { at200 0xF018 [] with ST := 7 } (fun t => (t.ST, t.soundOut)) = some (0, false) := by decide
/-- Vectors F6b, F6d. -/
theorem test_addIVx_flag_bounds :
    sees { at200 0xF11E [(1, 0x01)] with I := 0xEFF } (fun t => (t.I, t.reg 15)) = some (0xF00, 0) ∧
    sees { at200 0xF11E [(1, 0x01)] with I := 0xFFF } (fun t => (t.I, t.reg 15)) = some (0x000, 1) := by decide
/-- Vectors F6f, F6g. -/
theorem test_addIVx_into_vf :
    sees { at200 0xFF1E [(15, 0x05)] with I := 0x100 } (fun t => (t.I, t.reg 15)) = some (0x105, 0) ∧
    sees { at200 0xFF1E [(15, 0xFF)] with I := 0xE10 } (fun t => (t.I, t.reg 15)) = some (0xF0F, 1) := by decide
/-- Vectors F7b, F7d. -/
theorem test_ldFVx_is_not_masked :
    sees (at200 0xF229 [(2, 0x0F)]) (fun t => t.I) = some 0x04B ∧
    sees (at200 0xF229 [(2, 0xFF)]) (fun t => t.I) = some 0x4FB := by decide
/-- Vector F8a. -/
theorem test_ldBVx : sees { at200 0xFA33 [(0xA, 0x7B)] with I := 0x300 }
    (fun t => (t.memRead 0x300, t.memRead 0x301, t.memRead 0x302, t.I)) = some (1, 2, 3, 0x300) := by decide
/-- Vector F8f: the store wraps into the font. -/
theorem test_ldBVx_wraps : sees { at200 0xFA33 [(0xA, 0xFF)] with I := 0xFFE }
    (fun t => (t.memRead 0xFFE, t.memRead 0xFFF, t.memRead 0x000)) = some (2, 5, 5) := by decide
/-- Vector F9. -/
theorem test_ldMemVx : sees { at200 0xF255 [(0, 0x11), (1, 0x22), (2, 0x33), (3, 0x44)] with I := 0x400 }
    (fun t => (t.memRead 0x400, t.memRead 0x402, t.memRead 0x403, t.I)) = some (0x11, 0x33, 0x00, 0x400) := by decide
/-- Vector F10, the two bytes on either side of the wrap. -/
theorem test_ldMemVx_wraps : sees { at200 0xFF55 [(7, 0x17), (8, 0x18)] with I := 0xFF8 }
    (fun t => (t.memRead 0xFFF, t.memRead 0x000)) = some (0x17, 0x18) := by decide
/-- Vector F11. -/
theorem test_ldVxMem :
    sees { at200 0xF265 [(3, 0x99)] with I := 0x300, mem := [(0x200, 0xF2), (0x201, 0x65), (0x300, 1), (0x301, 2),
      (0x302, 3), (0x303, 4)] } (fun t => (t.reg 0, t.reg 1, t.reg 2, t.reg 3, t.I)) =
      some (1, 2, 3, 0x99, 0x300) := by decide
/-- Vector F13, its last register: VF is loaded as data. -/
theorem test_ldVxMem_into_vf : sees { at200 0xFF65 [] with I := 0x300, mem := [(0x200, 0xFF), (0x201, 0x65), (0x30F, 0x0F)] }
    (fun t => (t.reg 15, t.reg 14)) = some (0x0F, 0) := by decide

/-- Some pixels of a framebuffer. -/
def probe (fb : Framebuffer) (at' : List (Fin 32 × Fin 64)) : List Bool := at'.map fun p => fb.pixel p.1 p.2

/-- A framebuffer with one lit pixel. -/
def onePixel (r : Fin 32) (c : Fin 64) : Framebuffer := Framebuffer.blank.flip r c

/-- Vector D1, from a screen that is not blank. -/
theorem test_cls : sees { at200 0x00E0 [] with fb := onePixel 3 7 } (fun t => (probe t.fb [(3, 7), (0, 0)], t.dirtyOut)) =
    some ([false, false], true) := by decide
/-- Vectors D5 (columns 70 mod 64 on, row 33 mod 32) and D3. -/
theorem test_drw_wraps_and_n0 :
    sees (at200 0xD011 [(0, 70), (1, 33)])
      (fun t => (probe t.fb [(1, 5), (1, 6), (1, 9), (1, 10), (0, 6), (2, 6)], t.reg 15)) =
      some ([false, true, true, false, false, false], 0) ∧
    sees (at200 0xD010 [(15, 1)]) (fun t => (probe t.fb [(0, 0)], t.reg 15, t.dirtyOut)) = some ([false], 0, true) := by
  decide +kernel
/-- Vector D4: x = 15, drawn where VF was. -/
theorem test_drw_from_vf : sees (at200 0xDF15 [(15, 3)])
    (fun t => (probe t.fb [(0, 3), (0, 6), (1, 3), (1, 4), (1, 6), (4, 5), (5, 3)], t.reg 15)) =
    some ([true, true, true, false, true, true, false], 0) := by decide +kernel

/-- Four pixels and VF after a second draw of the same word, from a given screen. -/
def drawTwice (s : State) : Option (List Bool × Byte) :=
  match exec (.drw 0 1 1) s with
  | .next t => match exec (.drw 0 1 1) t with
    | .next u => some (probe u.fb [(0, 0), (0, 1), (0, 2), (0, 3)], u.reg 15)
    | _ => none
  | _ => none

/-- R211 against R215 (log 26): the sprite row F0 falls on four lit pixels, so the first draw erases them and the
second sets them again: R211 gives VF = 0, though the sprite has 1 bits. -/
theorem test_second_draw_on_lit_pixels :
    drawTwice { State.reset with fb := (((onePixel 0 0).flip 0 1).flip 0 2).flip 0 3 } =
      some ([true, true, true, true], 0) := by decide +kernel

/-! ### The cycle -/

/-- A waiting core with the keys of the coming cycle lined up. -/
def waitingFor (keys : BitVec 16) : State := { State.reset with waiting := true, waitReg := 5, inputs := [⟨keys, 0⟩] }

/-- Vector T3: waiting with keys 7 and 9 resolves with 7. -/
theorem test_keywait_least_key :
    sees { waitingFor 0x0280 with DT := 1 }
      (fun t => (t.waiting, t.reg 5, t.pc, t.DT)) = some (false, 7, 0x200, 1) := by decide
/-- A core waiting under EDGE, with the keys of the cycle before and of the coming one. -/
def edgeWaiting (before keys : BitVec 16) : State :=
  { waitingFor keys with waitReg := 0, keys := before, params := { defaultParams with trigger := .edge } }

/-- Vector T2, cycles 2 and 4 under EDGE. -/
theorem test_keywait_edge :
    sees (edgeWaiting 0x0020 0x0020) (fun t => (t.waiting, t.reg 0)) = some (true, 0) ∧
    sees (edgeWaiting 0x0000 0x0020) (fun t => (t.waiting, t.reg 0)) = some (false, 5) := by decide
/-- Vector X1, cycle 2: a halted core stores no keys. -/
theorem test_halted : sees { State.reset with fault := .callStackUnderflow, keys := 1, dirty := true, inputs := [⟨0xFFFF, 0⟩] }
    (fun t => (t.fault, t.keys, t.pc, t.dirtyOut)) = some (.callStackUnderflow, 1, 0x200, false) := by decide
/-- Vector X2: the timer count of a faulting cycle stands. -/
theorem test_fault_keeps_timer_count :
    sees { at200 0x00EE [] with DT := 4 } (fun t => (t.fault, t.DT)) = some (.callStackUnderflow, 3) := by decide
/-- Vectors B7, B2, B15c and R33: the code numbers at the output. -/
theorem test_fault_codes :
    sees (withStack (at200 0x2210 []) 16 0x202) (fun t => t.faultOut) = some 1 ∧
    sees (at200 0x00EE []) (fun t => t.faultOut) = some 2 ∧
    sees (at200 0xE19E [(1, 0x10)]) (fun t => t.faultOut) = some 3 ∧
    sees (at200 0x1204 []) (fun t => t.faultOut) = some 0 := by decide
/-- Vector M1: the fetch wraps to the first font byte. -/
theorem test_fetch_wraps :
    sees { State.reset with pc := 0xFFF, mem := [(0xFFF, 0x12)] } (fun t => t.pc) = some 0x2F0 := by decide
/-- Vector M3: with no image the core executes an unmapped no-op. -/
theorem test_reset_runs_noop : sees State.reset (fun t => (t.pc, t.fault)) = some (0x202, .none) := by decide
theorem test_withFetchWord :
    sees (State.reset.withFetchWord 16 0x6A7B) (fun t => (t.reg 0xA, t.pc)) = some (0x7B, 0x202) := by decide

/-! ### Reset -/

/-- R46, R47: the font's first and last glyph rows, and zeros around the image. -/
theorem test_reset_memory :
    (State.reset.memRead 0x000, State.reset.memRead 0x001, State.reset.memRead 0x04F, State.reset.memRead 0x050,
      State.reset.memRead 0x200) = (0xF0, 0x90, 0x80, 0x00, 0x00) := by decide
/-- R280, R283: a halted core runs again, with its image at 0x200. -/
theorem test_resetWith_image :
    ∃ t, resetWith [0x12, 0x04] { State.reset with
        fault := .callStackOverflow, pc := 0x400, V := Vector.replicate 16 9 } = .next t ∧
      (t.fault, t.pc, t.reg 3, t.fetch) = (.none, 0x200, 0, 0x1204) := ⟨_, rfl, by decide⟩

/-! ## Witnesses: for each statement with hypotheses, inputs that meet them, at the ends of each clause's range -/

theorem witness_DecodeInvertsEncode : (Instr.drw 15 0 15).wellFormed = true ∧ (Instr.unmapped 0xFFFF).wellFormed = true := by
  decide
theorem witness_DispatchFollowsOpcodeMap :
    (opcodeMap.any fun row => row.selects 0xF065) = true ∧ (opcodeMap.all fun row => !row.selects 0xF066) = true := by
  decide
theorem witness_UnmappedWordsAreTheTable : decode 0x8008 = .unmapped 0x8008 ∧ Word.isUnmapped 0x8007 = false := by decide
theorem witness_CanonicalMemoriesAreDetermined :
    Memory.wf defaultFont [(0x000, 5), (0xFFF, 7)] ∧
      ∀ a < 4096, Memory.read defaultFont [(0x000, 5), (0xFFF, 7)] a = Memory.read defaultFont [(0x000, 5), (0xFFF, 7)] a :=
  ⟨by decide, fun _ _ => rfl⟩
/-- The second one has the block wrap between the two bytes. -/
theorem witness_StoredBlockIsFetched :
    ({ State.reset with I := 0x202 } : State).pcPlus 2 = (0x202 + (0 : Reg).val) % 4096 ∧
    ({ State.reset with pc := 0xFFD, I := 0xFF1 } : State).pcPlus 2 =
      (({ State.reset with pc := 0xFFD, I := 0xFF1 } : State).value .index + (14 : Reg).val) % 4096 ∧
    (15 : Reg).val = (14 : Reg).val + 1 ∧ (15 : Reg) ≤ 15 := by decide
/-- Both sides of the flag of 8XY4 at its bound. -/
theorem witness_AddSetsCarry :
    (at200 0 [(1, 0x7F), (2, 0x80)]).value (.reg 1) + (at200 0 [(1, 0x7F), (2, 0x80)]).value (.reg 2) = 255 ∧
    (at200 0 [(1, 0x80), (2, 0x80)]).value (.reg 1) + (at200 0 [(1, 0x80), (2, 0x80)]).value (.reg 2) = 256 ∧
    (14 : Reg) ≠ 15 := by decide
/-- Both values of VF_ORDER, and x and y on both sides of 15, for the four statements that turn on them. -/
theorem witness_VfOrderClauses :
    State.reset.params.vfOrder = .flagLast ∧ (asListed State.reset).params.vfOrder = .asListed ∧
    (14 : Reg) ≠ 15 := by decide
theorem witness_SubtractSetsGreater : (at200 0 [(1, 6), (2, 5)]).value (.reg 2) < (at200 0 [(1, 6), (2, 5)]).value (.reg 1) ∧
    ¬ (at200 0 [(1, 5), (2, 5)]).value (.reg 2) < (at200 0 [(1, 5), (2, 5)]).value (.reg 1) := by decide
theorem witness_ReverseSubtractSetsGreater :
    (at200 0 [(1, 5), (2, 6)]).value (.reg 1) < (at200 0 [(1, 5), (2, 6)]).value (.reg 2) := by decide
theorem witness_RandomByteIsReadByRndOnly : ∀ x kk, Instr.cls ≠ .rnd x kk := by
  intro x kk h
  cases h
theorem witness_UnlistedRegistersAreUntouched :
    touchesReg (.ldVxMem 14) 15 = false ∧ touchesReg .cls 0 = false ∧ touchesReg (.jpV0Nnn 0) 1 = false := by decide
theorem witness_VfOrderMattersOnlyForVf :
    ∀ x y, (Instr.sub 14 0 = .sub x y ∨ Instr.sub 14 0 = .subn x y → x ≠ 15 ∧ y ≠ 15) ∧
      (Instr.sub 14 0 = .shr x y ∨ Instr.sub 14 0 = .shl x y → x ≠ 15) := by decide
theorem witness_CallPushesReturnAddress :
    (withStack State.reset 0 0).value .sp = (0 : Fin 16).val ∧ (withStack State.reset 15 0).value .sp = (15 : Fin 16).val := by
  decide
theorem witness_ReturnPopsAddress :
    (withStack State.reset 1 0).value .sp = (0 : Fin 16).val + 1 ∧
    (withStack State.reset 16 0).value .sp = (15 : Fin 16).val + 1 := by decide
theorem witness_NestedCallsReturnInOrder :
    ((withStack State.reset 0 0).value .sp = (0 : Fin 16).val ∧ (1 : Fin 16).val = (0 : Fin 16).val + 1) ∧
    ((withStack State.reset 14 0).value .sp = (14 : Fin 16).val ∧ (15 : Fin 16).val = (14 : Fin 16).val + 1) := by decide
theorem witness_SeventeenthCallOverflows : State.reset.value .sp = 0 := by decide
theorem witness_KeySkips :
    (at200 0 [(1, 0)]).value (.reg 1) = (0 : Fin 16).val ∧ (at200 0 [(1, 15)]).value (.reg 1) = (15 : Fin 16).val ∧
    ({ State.reset with keys := 0x8000 } : State).value (.key 15) = 1 ∧ State.reset.value (.key 0) = 0 := by decide
theorem witness_KeySkipsSeeThisCyclesKeys :
    ((at200 0xE19E [(1, 15)]).Running ∧ (at200 0xE19E [(1, 15)]).value (.reg 1) = (15 : Fin 16).val ∧
      (at200 0xE19E [(1, 15)]).current = .skp 1) ∧
    ((at200 0xE0A1 []).Running ∧ (at200 0xE0A1 []).value (.reg 0) = (0 : Fin 16).val ∧
      (at200 0xE0A1 []).current = .sknp 0) := by
  unfold State.Running
  decide
/-- The registers held something else in between. -/
theorem witness_StoredBlockIsLoadedBack :
    ∃ t u, exec (.ldMemVx 15) (at200 0 [(15, 7)]) = .next t ∧ u = { t with V := Vector.replicate 16 9 } ∧
      u.I = (at200 0 [(15, 7)]).I ∧ (∀ a, u.value (.mem a) = t.value (.mem a)) :=
  ⟨_, _, rfl, rfl, rfl, fun _ => rfl⟩
/-- The second draw starts with VF (here x = 15) put back to the column of the first. -/
theorem witness_DrawTwiceRestoresTheScreen :
    ∃ t u, exec (.drw 15 1 5) (at200 0 [(15, 3)]) = .next t ∧ u = { t with V := (at200 0 [(15, 3)]).V } ∧ u.fb = t.fb ∧
      u.I = (at200 0 [(15, 3)]).I ∧ u.reg 15 = (at200 0 [(15, 3)]).reg 15 ∧ u.reg 1 = (at200 0 [(15, 3)]).reg 1 ∧
      (∀ a, u.value (.mem a) = (at200 0 [(15, 3)]).value (.mem a)) ∧
      (∀ r c, SpriteLights (at200 0 [(15, 3)]) 15 1 5 r c → (at200 0 [(15, 3)]).fb.pixel r c = false) := by
  refine ⟨_, _, rfl, rfl, rfl, rfl, rfl, rfl, fun _ => rfl, fun r c _ => ?_⟩
  exact Framebuffer.pixel_blank r c
theorem witness_StepRunsTheDecodedInstruction :
    (at200 0xD015 []).Running ∧ (Instr.drw 0 1 5).wellFormed = true ∧
    decodeBytes [(at200 0xD015 []).memRead 0x200, (at200 0xD015 []).memRead 0x201] = .ok (.drw 0 1 5, []) := by
  unfold State.Running
  decide
/-- A running core and a waiting one, each with ports lined up. -/
theorem witness_StepRunsTheDecodedInstruction_ports :
    (∃ rest, (at200 0xC30F []).fault = .none ∧ (at200 0xC30F []).waiting = false ∧
      (at200 0xC30F []).inputs = ⟨0, 0⟩ :: rest) ∧
    (∃ rest, (waitingFor 0x8000).fault = .none ∧ (waitingFor 0x8000).waiting = true ∧
      (waitingFor 0x8000).inputs = ⟨0x8000, 0⟩ :: rest) := ⟨⟨_, rfl, rfl, rfl⟩, ⟨_, rfl, rfl, rfl⟩⟩
theorem witness_HaltedCoreNeverChanges : ({ State.reset with fault := .keyIndexOutOfRange } : State).fault ≠ .none := by
  decide
theorem witness_FaultingInstructionCommitsNothing :
    faultIn (.call 0x210) (withStack State.reset 16 0) = .callStackOverflow ∧
    faultIn (.call 0x210) (withStack State.reset 15 0) = .none ∧
    faultIn .ret (withStack State.reset 0 0) = .callStackUnderflow ∧
    faultIn .ret (withStack State.reset 1 0) = .none ∧
    faultIn (.skp 1) (at200 0 [(1, 16)]) = .keyIndexOutOfRange ∧ faultIn (.skp 1) (at200 0 [(1, 15)]) = .none ∧
    faultIn (.sknp 1) (at200 0 [(1, 16)]) = .keyIndexOutOfRange := by decide
theorem witness_FaultIsPrecise :
    ((at200 0x00EE []).Running ∧ (at200 0x00EE []).current = .ret ∧
      faultIn (at200 0x00EE []).current (at200 0x00EE []) ≠ .none) ∧
    ((withStack (at200 0x2210 []) 16 0).Running ∧ (withStack (at200 0x2210 []) 16 0).current = .call 0x210 ∧
      faultIn (withStack (at200 0x2210 []) 16 0).current (withStack (at200 0x2210 []) 16 0) ≠ .none) ∧
    ((at200 0xE19E [(1, 16)]).Running ∧ (at200 0xE19E [(1, 16)]).current = .skp 1 ∧
      faultIn (at200 0xE19E [(1, 16)]).current (at200 0xE19E [(1, 16)]) ≠ .none) ∧
    ((at200 0xE1A1 [(1, 255)]).Running ∧ (at200 0xE1A1 [(1, 255)]).current = .sknp 1 ∧
      faultIn (at200 0xE1A1 [(1, 255)]).current (at200 0xE1A1 [(1, 255)]) ≠ .none) := by
  unfold State.Running
  decide
theorem witness_TimersCountEveryRunningCycle :
    (at200 0xF107 []).Running ∧ (at200 0xF107 []).current = .ldVxDt 1 ∧
    (at200 0xF115 []).Running ∧ (at200 0xF115 []).current = .ldDtVx 1 ∧
    (at200 0xF118 []).Running ∧ (at200 0xF118 []).current = .ldStVx 1 := by
  unfold State.Running
  decide

theorem witness_KeyWaitResolvesOnLeastKey :
    (waitingFor 0x0280).fault = .none ∧ (waitingFor 0x0280).waiting = true ∧
    (∀ k, ¬ Qualifies (waitingFor 0) k) ∧ (Qualifies (waitingFor 0x0280) 7 ∧ ∀ j < 7, ¬ Qualifies (waitingFor 0x0280) j) ∧
    (Qualifies (waitingFor 0x8001) 0) ∧ (Qualifies (waitingFor 0x8000) 15 ∧ ∀ j < 15, ¬ Qualifies (waitingFor 0x8000) j) := by
  unfold Qualifies
  decide
/-- Under EDGE a key pressed in both cycles does not qualify, one newly pressed does. -/
theorem witness_KeyWaitResolvesOnLeastKey_edge :
    (edgeWaiting 0 0x0020).fault = .none ∧ (edgeWaiting 0 0x0020).waiting = true ∧ Qualifies (edgeWaiting 0 0x0020) 5 ∧
    ∀ k, ¬ Qualifies (edgeWaiting 0x0020 0x0020) k := by
  unfold Qualifies
  decide
theorem witness_OnlyWaitKeyStartsTheWait :
    (∃ t, (at200 0xF20A []).Running ∧ step (at200 0xF20A []) = .next t ∧ t.waiting = true) ∧
    (∃ t, (waitingFor 0x0280).fault = .none ∧ (waitingFor 0x0280).waiting = true ∧
      step (waitingFor 0x0280) = .next t ∧ t.waiting = false) :=
  ⟨⟨_, ⟨rfl, rfl⟩, rfl, rfl⟩, ⟨_, rfl, rfl, rfl, rfl⟩⟩
theorem witness_DirtyMarksClearAndDraw :
    (∃ t, step (at200 0x00E0 []) = .next t ∧ t.dirtyOut = true) ∧ (∃ t, step (at200 0x6A7B []) = .next t ∧ t.dirtyOut = false) :=
  ⟨⟨_, rfl, rfl⟩, ⟨_, rfl, rfl⟩⟩
theorem witness_ScreenChangesOnlyByClearAndDraw :
    ∃ t, step { at200 0x00E0 [] with fb := onePixel 3 7 } = .next t ∧ t.fb.pixel 3 7 ≠ (onePixel 3 7).pixel 3 7 :=
  ⟨_, rfl, by decide⟩
theorem witness_IndexChangesOnlyByItsWriters :
    ∃ t, step (at200 0xA300 []) = .next t ∧ t.I ≠ (at200 0xA300 []).I := ⟨_, rfl, by decide⟩
theorem witness_StackChangesOnlyByCallAndReturn :
    (∃ t, step (at200 0x2210 []) = .next t ∧ t.value (.stack 0) ≠ (at200 0x2210 []).value (.stack 0) ∧
      t.sp ≠ (at200 0x2210 []).sp) ∧
    (∃ t, step (withStack (at200 0x00EE []) 1 0x301) = .next t ∧ t.sp ≠ (withStack (at200 0x00EE []) 1 0x301).sp) :=
  ⟨⟨_, rfl, by decide, by decide⟩, ⟨_, rfl, by decide⟩⟩

/-- A halted core that shows its cause: 00EE at 0x200 with an empty stack. -/
def halted : State := { State.reset with mem := [(0x201, 0xEE)], fault := .callStackUnderflow }

theorem witness_StepKeepsTheInvariant : halted.Inv ∧ ∃ t, step halted = .next t :=
  ⟨⟨by decide, fun _ => by decide, fun _ => ⟨rfl, rfl⟩, fun h => by cases h⟩, _, rfl⟩
/-- A running core that meets the invariant and whose step changes memory. -/
theorem witness_StepKeepsTheInvariant_running :
    ({ at200 0xFA33 [(0xA, 0x7B)] with I := 0x300 } : State).Inv ∧
      ∃ t, step { at200 0xFA33 [(0xA, 0x7B)] with I := 0x300 } = .next t ∧ t.memRead 0x300 = 1 :=
  ⟨⟨by decide, fun h => absurd rfl h, fun h => absurd rfl h, fun h => by cases h⟩, _, rfl, by decide⟩
theorem witness_ResetMeetsTheInvariant : ∃ t, resetWith [0x12, 0x00] halted = .next t := ⟨_, rfl⟩
theorem witness_ResetPutsRegistersInPlace : (List.replicate 3584 (0xFF : Byte)).length ≤ 3584 := List.length_replicate.le
theorem witness_ResetFillsMemory :
    ([] : List Byte).length ≤ 3584 ∧ (List.replicate 3584 (0xFF : Byte)).length ≤ 3584 ∧
    0 < ([0x12, 0x00] : List Byte).length ∧ (0x050 < 0x200 ∧ 0x200 + ([0x12, 0x00] : List Byte).length ≤ 0x202) :=
  ⟨by decide, List.length_replicate.le, by decide, by decide⟩
theorem witness_ResetForgetsTheState :
    halted.params = State.reset.params ∧ halted.inputs = State.reset.inputs ∧ halted.drawn = State.reset.drawn ∧
    halted ≠ State.reset := ⟨rfl, rfl, rfl, by decide⟩
theorem witness_TooLargeImageIsRefused :
    3584 < (List.replicate 3585 (0 : Byte)).length ∧ (List.replicate 3584 (0 : Byte)).length ≤ 3584 :=
  ⟨List.length_replicate.symm ▸ (by decide : 3584 < 3585), List.length_replicate.le⟩
theorem witness_OutputsShowPixelsAndSound :
    (31 : Fin 32).val * 64 + (63 : Fin 64).val < 2048 ∧ 0 < ({ State.reset with ST := 1 } : State).value .sound := by decide
end

section
/-! SUPPORT. The arithmetic and logic instructions (41_alu.md): the frames of an instruction that writes VX alone and of
one that writes VX and VF, what a result and a flag leave under either VF_ORDER, and the statements settled from them. -/

namespace Sys2Proof.Machine

/-! ### Frames -/

/-- A state that differs in its register file and `pc` alone keeps every part outside a list that holds `pc` and the
registers that changed. -/
theorem keepsAllBut_of_regs {writes : Part → Prop} {s t : State} (ht : t = { s with V := t.V, pc := t.pc })
    (hpc : writes .pc) (hreg : ∀ q, ¬ writes (.reg q) → t.reg q = s.reg q) : KeepsAllBut writes s t := by
  constructor
  · intro p hp
    cases p with
    | reg q => exact congrArg BitVec.toNat (hreg q hp)
    | pc => exact absurd hpc hp
    | _ => rw [ht]; rfl
  · rw [ht]; exact ⟨rfl, rfl, rfl, rfl⟩

/-- The frame of an instruction that writes VX (R122 to R127, R141). -/
theorem keepsAllBut_setReg_advance (s : State) (x : Reg) (b : Byte) :
    KeepsAllBut (fun p => p = .reg x ∨ p = .pc) s (s.setReg x b).advance := by
  refine keepsAllBut_of_regs rfl (.inr rfl) fun q hq => ?_
  have hx : x ≠ q := fun h => hq (.inl (h ▸ rfl))
  rw [State.reg_advance, State.reg_setReg_ne s b hx]

/-- The frame of an instruction that writes VX and VF: a state that differs from the old one in its register file
alone, and there in VX and VF alone. -/
theorem keepsAllBut_advance_of_regs {s u : State} {x : Reg} (hu : u = { s with V := u.V })
    (hreg : ∀ q, x ≠ q → vf ≠ q → u.reg q = s.reg q) :
    KeepsAllBut (fun p => p = .reg x ∨ p = .reg 15 ∨ p = .pc) s u.advance := by
  refine keepsAllBut_of_regs (by rw [hu]; rfl) (.inr (.inr rfl)) fun q hq => ?_
  have hx : x ≠ q := fun h => hq (.inl (h ▸ rfl))
  have hf : vf ≠ q := fun h => hq (.inr (.inl (h ▸ rfl)))
  rw [State.reg_advance, hreg q hx hf]

/-! ### What VX and VF hold afterwards -/

/-- VX after an instruction that writes it. -/
theorem reg_setReg_advance (s : State) (x : Reg) (b : Byte) : (s.setReg x b).advance.reg x = b := by
  rw [State.reg_advance, State.reg_setReg_self]

/-- The same as a number. -/
theorem value_reg_setReg_advance (s : State) (x : Reg) (b : Byte) :
    (s.setReg x b).advance.value (.reg x) = b.toNat :=
  congrArg BitVec.toNat (reg_setReg_advance s x b)

/-- FLAG_LAST: VF holds the flag. -/
theorem reg_vf_resultAndFlag_flagLast {s : State} (x y : Reg) (result : Byte → Byte → Byte)
    (flag : Byte → Byte → Bool) (h : s.params.vfOrder = .flagLast) :
    (s.resultAndFlag x y result flag).reg vf = flagByte (flag (s.reg x) (s.reg y)) := by
  rw [State.reg_resultAndFlag_flagLast _ _ _ _ _ _ h, if_pos rfl]

/-- FLAG_LAST: a VX other than VF holds the result. -/
theorem reg_x_resultAndFlag_flagLast {s : State} {x : Reg} (y : Reg) (result : Byte → Byte → Byte)
    (flag : Byte → Byte → Bool) (h : s.params.vfOrder = .flagLast) (hx : x ≠ vf) :
    (s.resultAndFlag x y result flag).reg x = result (s.reg x) (s.reg y) := by
  rw [State.reg_resultAndFlag_flagLast _ _ _ _ _ _ h, if_neg hx.symm, if_pos rfl]

/-- AS_LISTED: VF keeps the flag unless the result overwrites it. -/
theorem reg_vf_resultAndFlag_asListed {s : State} {x : Reg} (y : Reg) (result : Byte → Byte → Byte)
    (flag : Byte → Byte → Bool) (h : s.params.vfOrder = .asListed) (hx : x ≠ vf) :
    (s.resultAndFlag x y result flag).reg vf = flagByte (flag (s.reg x) (s.reg y)) := by
  rw [State.reg_resultAndFlag_asListed _ _ _ _ _ _ h]
  exact (if_neg hx).trans (if_pos rfl)

/-- AS_LISTED: VX holds the result of operands that read the flag where they name VF. -/
theorem reg_x_resultAndFlag_asListed {s : State} (x y : Reg) (result : Byte → Byte → Byte)
    (flag : Byte → Byte → Bool) (h : s.params.vfOrder = .asListed) :
    (s.resultAndFlag x y result flag).reg x =
      let f := flagByte (flag (s.reg x) (s.reg y))
      result (if x = vf then f else s.reg x) (if y = vf then f else s.reg y) := by
  rw [State.reg_resultAndFlag_asListed _ _ _ _ _ _ h]
  simp only [if_true, eq_comm (a := vf)]

/-- The four instructions of R121 at once: given their flag and their result as numbers, what VX and VF hold under
either VF_ORDER, with `pc` and the frame. -/
theorem completes_of_resultAndFlag {i : Instr} {s : State} {x y : Reg} {result : Byte → Byte → Byte}
    {flag : Byte → Byte → Bool} {f : Nat} (r : Nat → Nat → Nat)
    (hexec : exec i s = .next (s.resultAndFlag x y result flag).advance)
    (hflag : (flagByte (flag (s.reg x) (s.reg y))).toNat = f)
    (hresult : ∀ a b, (result a b).toNat = r a.toNat b.toNat) :
    Completes i s fun t =>
      (s.params.vfOrder = .flagLast → t.value (.reg 15) = f ∧
        (x ≠ 15 → t.value (.reg x) = r (s.value (.reg x)) (s.value (.reg y)))) ∧
      (s.params.vfOrder = .asListed → (x ≠ 15 → t.value (.reg 15) = f) ∧
        t.value (.reg x) = r (if x = 15 then f else s.value (.reg x)) (if y = 15 then f else s.value (.reg y))) ∧
      t.value .pc = s.pcPlus 2 ∧ KeepsAllBut (fun p => p = .reg x ∨ p = .reg 15 ∨ p = .pc) s t := by
  refine ⟨_, hexec, fun h => ⟨?_, fun hx => ?_⟩, fun h => ⟨fun hx => ?_, ?_⟩, ?_, ?_⟩
  · rw [← hflag, ← reg_vf_resultAndFlag_flagLast x y result flag h]; rfl
  · exact (congrArg BitVec.toNat (reg_x_resultAndFlag_flagLast y result flag h hx)).trans (hresult _ _)
  · rw [← hflag, ← reg_vf_resultAndFlag_asListed y result flag h hx]; rfl
  · have hval := (congrArg BitVec.toNat (reg_x_resultAndFlag_asListed x y result flag h)).trans (hresult _ _)
    rw [apply_ite BitVec.toNat, apply_ite BitVec.toNat, hflag] at hval
    exact hval
  · rw [State.resultAndFlag_eq]; exact s.pc_add_two
  · exact keepsAllBut_advance_of_regs (s.resultAndFlag_eq x y result flag)
      fun q hx hf => s.reg_resultAndFlag_ne x y q result flag hx hf

/-! ### The statements -/

/-- Settles O9: each of the two loads is one write of VX. -/
theorem loadsWriteTheirRegister : Obligations.LoadsWriteTheirRegister := fun s x y kk =>
  ⟨⟨_, rfl, value_reg_setReg_advance s x kk, s.pc_add_two, keepsAllBut_setReg_advance s x _⟩,
    ⟨_, rfl, value_reg_setReg_advance s x (s.reg y), s.pc_add_two, keepsAllBut_setReg_advance s x _⟩⟩

/-- Settles O10: the byte written is the sum modulo 256, and VX is the one register written. -/
theorem addImmediateWrapsWithoutFlag : Obligations.AddImmediateWrapsWithoutFlag := by
  intro s x kk
  refine ⟨_, rfl, ?_, s.pc_add_two, keepsAllBut_setReg_advance s x _⟩
  rw [value_reg_setReg_advance, BitVec.toNat_ofNat]
  rfl

/-- Settles O11: VX is read back as the bitwise operation on the old operands, whose bits the library gives. -/
theorem logicWorksBitByBit : Obligations.LogicWorksBitByBit := by
  intro s x y
  refine ⟨⟨_, rfl, fun k => ?_, s.pc_add_two, keepsAllBut_setReg_advance s x _⟩,
    ⟨_, rfl, fun k => ?_, s.pc_add_two, keepsAllBut_setReg_advance s x _⟩,
    ⟨_, rfl, fun k => ?_, s.pc_add_two, keepsAllBut_setReg_advance s x _⟩⟩
  · rw [reg_setReg_advance, BitVec.getLsbD_or]
  · rw [reg_setReg_advance, BitVec.getLsbD_and]
  · rw [reg_setReg_advance, BitVec.getLsbD_xor]

/-- Settles O12: the sum is written first and the carry of the old operands after it, so VF holds the carry whatever x
is. -/
theorem addSetsCarry : Obligations.AddSetsCarry := by
  intro s x y
  refine ⟨_, rfl, fun hx => ?_, ?_, s.pc_add_two, keepsAllBut_advance_of_regs rfl fun q hx hf => ?_⟩
  · have hf : vf ≠ x := hx.symm
    simp only [State.value, State.reg_advance, State.reg_setVF, if_neg hf, State.reg_setReg_self, BitVec.toNat_ofNat]
  · exact (congrArg BitVec.toNat (State.reg_setReg_self _ vf _)).trans (flagByte_carryFlag _ _)
  · rw [State.reg_setVF, if_neg hf, State.reg_setReg_ne s _ hx]

/-- Settles O13: the flag is the strict comparison, the result the difference modulo 256, under `resultAndFlag`. -/
theorem subtractSetsGreater : Obligations.SubtractSetsGreater := fun _ _ _ =>
  completes_of_resultAndFlag (fun a b => (a + 256 - b) % 256) rfl (flagByte_greaterFlag _ _) sub_toNat

/-- Settles O14: 8XY5 with the operands of the flag and of the difference exchanged. -/
theorem reverseSubtractSetsGreater : Obligations.ReverseSubtractSetsGreater := fun _ _ _ =>
  completes_of_resultAndFlag (fun a b => (b + 256 - a) % 256) rfl (flagByte_greaterFlag _ _) fun a b => sub_toNat b a

/-- Settles O15: both operands of the result and the flag are VX, and the second is not used. -/
theorem shiftRightSetsLowBit : Obligations.ShiftRightSetsLowBit := fun _ _ _ =>
  completes_of_resultAndFlag (fun a _ => a / 2) rfl (flagByte_lowBit _) fun a _ => shiftRight_toNat a

/-- Settles O16: as for 8XY6, with the bit shifted out at the top. -/
theorem shiftLeftSetsHighBit : Obligations.ShiftLeftSetsHighBit := fun _ _ _ =>
  completes_of_resultAndFlag (fun a _ => 2 * a % 256) rfl (flagByte_highBit _) fun a _ => shiftLeft_toNat a

/-- Settles O17: VX is read back as the conjunction of the cycle's random byte and `kk`. -/
theorem randomIsMasked : Obligations.RandomIsMasked := by
  intro s x kk
  refine ⟨_, rfl, fun k => ?_, s.pc_add_two, keepsAllBut_setReg_advance s x _⟩
  rw [reg_setReg_advance, BitVec.getLsbD_and]

end Sys2Proof.Machine
end

section
/-! SUPPORT. The skips (42_control_flow.md R153 to R156, R160, R161): what any instruction that answers `skipIf`
leaves, and the statements settled from it. -/

namespace Sys2Proof.Machine

/-- Where a skip goes, modulo 4096 (R160, R161). -/
theorem State.value_pc_skipIf (s : State) (c : Bool) : (s.skipIf c).value .pc = s.pcPlus (if c then 4 else 2) := by
  cases c with
  | false => exact s.pc_add_two
  | true => exact s.pc_add_four

/-- A skip writes `pc` alone. -/
theorem keepsAllBut_skipIf (s : State) (c : Bool) : KeepsAllBut (fun p => p = .pc) s (s.skipIf c) :=
  keepsAllBut_setPc s _

/-- Every skip instruction at once: given the condition its test decides, where `pc` goes, and the frame. -/
theorem completes_of_skipIf {i : Instr} {s : State} {c : Bool} {cond : Prop} [Decidable cond]
    (hexec : exec i s = .next (s.skipIf c)) (hcond : c = true ↔ cond) :
    Completes i s fun t => t.value .pc = s.pcPlus (if cond then 4 else 2) ∧ KeepsAllBut (fun p => p = .pc) s t := by
  refine ⟨_, hexec, ?_, keepsAllBut_skipIf s c⟩
  rw [State.value_pc_skipIf, if_congr hcond rfl rfl]

/-- The test for equal bytes, on the bytes as numbers (R10). -/
theorem byte_beq_iff_toNat_eq (a b : Byte) : (a == b) = true ↔ a.toNat = b.toNat :=
  beq_iff_eq.trans BitVec.toNat_inj.symm

/-- The test for different bytes, on the bytes as numbers (R10). -/
theorem byte_bne_iff_toNat_ne (a b : Byte) : (a != b) = true ↔ a.toNat ≠ b.toNat :=
  bne_iff_ne.trans (not_congr BitVec.toNat_inj.symm)

/-! ### The statements -/

/-- Settles O26: 3XKK skips when VX equals `kk`, 4XKK when it does not. -/
theorem immediateSkips : Obligations.ImmediateSkips := fun s x kk =>
  ⟨completes_of_skipIf rfl (byte_beq_iff_toNat_eq (s.reg x) kk),
    completes_of_skipIf rfl (byte_bne_iff_toNat_ne (s.reg x) kk)⟩

/-- Settles O27: 5XY0 skips when VX equals VY, 9XY0 when it does not. -/
theorem registerSkips : Obligations.RegisterSkips := fun s x y =>
  ⟨completes_of_skipIf rfl (byte_beq_iff_toNat_eq (s.reg x) (s.reg y)),
    completes_of_skipIf rfl (byte_bne_iff_toNat_ne (s.reg x) (s.reg y))⟩

end Sys2Proof.Machine
end

section
/-! SUPPORT. The loads of the index register (43_fx_memory.md R180, R186): what any instruction that loads I leaves,
and the statement settled from it. -/

namespace Sys2Proof.Machine

/-- The frame of an instruction that writes I alone (R180, R186). -/
theorem keepsAllBut_setI_advance (s : State) (a : Addr) :
    KeepsAllBut (fun p => p = .index ∨ p = .pc) s (s.setI a).advance := by
  refine ⟨fun p hp => ?_, rfl, rfl, rfl, rfl⟩
  cases p with
  | index => exact absurd (.inl rfl) hp
  | pc => exact absurd (.inr rfl) hp
  | _ => rfl

/-- Every instruction that loads I and does nothing else: given the address loaded as a number, what I and `pc` hold,
and the frame. -/
theorem completes_of_setI_advance {i : Instr} {s : State} {a : Addr} {n : Nat}
    (hexec : exec i s = .next (s.setI a).advance) (ha : a.toNat = n) :
    Completes i s fun t => t.value .index = n ∧ t.value .pc = s.pcPlus 2 ∧
      KeepsAllBut (fun p => p = .index ∨ p = .pc) s t :=
  ⟨_, hexec, ha, s.pc_add_two, keepsAllBut_setI_advance s a⟩

/-! ### The statement -/

/-- Settles O31: ANNN loads I with its operand, FX29 with the glyph address of VX, whose product fits 12 bits. -/
theorem indexLoads : Obligations.IndexLoads := fun s x _ =>
  ⟨completes_of_setI_advance rfl rfl, completes_of_setI_advance rfl (glyphAddress_toNat (s.reg x))⟩

end Sys2Proof.Machine
end

section
/-! SUPPORT. Painting the screen (44_sprite.md R210): the frame of an instruction that replaces the framebuffer, and the
statement on 00E0 settled from it. -/

namespace Sys2Proof.Machine

/-- The frame of an instruction that paints the screen and writes no register: pixels, `dirty` and `pc` (R210). -/
theorem keepsAllBut_paint_advance (s : State) (g : Framebuffer) :
    KeepsAllBut (fun p => (∃ r c, p = .pixel r c) ∨ p = .dirty ∨ p = .pc) s (s.paint g).advance := by
  refine ⟨fun p hp => ?_, rfl, rfl, rfl, rfl⟩
  cases p with
  | pixel r c => exact absurd (.inl ⟨r, c, rfl⟩) hp
  | dirty => exact absurd (.inr (.inl rfl)) hp
  | pc => exact absurd (.inr (.inr rfl)) hp
  | _ => rfl

/-- A pixel after the screen is painted, as a number (R10). -/
theorem value_pixel_paint_advance (s : State) (g : Framebuffer) (r : Fin 32) (c : Fin 64) :
    (s.paint g).advance.value (.pixel r c) = (g.pixel r c).toNat := by
  rw [State.value, State.advance_fb, State.paint_fb]

/-! ### The statement -/

/-- Settles O39: 00E0 paints the blank screen, whose every pixel is 0. -/
theorem clearBlanksTheScreen : Obligations.ClearBlanksTheScreen := by
  intro s
  refine ⟨_, rfl, fun r c => ?_, rfl, s.pc_add_two, keepsAllBut_paint_advance s Framebuffer.blank⟩
  rw [value_pixel_paint_advance, Framebuffer.pixel_blank, Bool.toNat_false]

end Sys2Proof.Machine
end

section
/-! SUPPORT. The round trips between words and instructions (30_encoding R70 to R81): the fields of an encoded word, a
word rebuilt from its fields, the unmapped words family by family, and the opcode map of R75 against the dispatch. -/

namespace Sys2Proof

/-! ### The fields of an encoded word (R71, R72) -/

@[simp] theorem fieldT_encodeA (t : BitVec 4) (nnn : Addr) : fieldT (encodeA t nnn) = t :=
  BitVec.eq_of_toNat_eq (Laws.TopNibble.of_encodeA t nnn)

@[simp] theorem fieldT_encodeK (t : BitVec 4) (x : Reg) (kk : Byte) : fieldT (encodeK t x kk) = t :=
  BitVec.eq_of_toNat_eq (Laws.TopNibble.of_encodeK t x kk)

@[simp] theorem fieldT_encodeR (t : BitVec 4) (x y : Reg) (n : Fin 16) : fieldT (encodeR t x y n) = t :=
  BitVec.eq_of_toNat_eq (Laws.TopNibble.of_encodeR t x y n)

@[simp] theorem fieldNnn_encodeA (t : BitVec 4) (nnn : Addr) : fieldNnn (encodeA t nnn) = nnn := by
  apply BitVec.eq_of_toNat_eq
  rw [fieldNnn_toNat, encodeA_toNat]
  omega

@[simp] theorem fieldX_encodeK (t : BitVec 4) (x : Reg) (kk : Byte) : fieldX (encodeK t x kk) = x := by
  apply Fin.ext
  rw [fieldX_val, encodeK_toNat]
  omega

@[simp] theorem fieldKk_encodeK (t : BitVec 4) (x : Reg) (kk : Byte) : fieldKk (encodeK t x kk) = kk := by
  apply BitVec.eq_of_toNat_eq
  rw [fieldKk_toNat, encodeK_toNat]
  omega

@[simp] theorem fieldX_encodeR (t : BitVec 4) (x y : Reg) (n : Fin 16) : fieldX (encodeR t x y n) = x := by
  apply Fin.ext
  rw [fieldX_val, encodeR_toNat]
  omega

@[simp] theorem fieldY_encodeR (t : BitVec 4) (x y : Reg) (n : Fin 16) : fieldY (encodeR t x y n) = y := by
  apply Fin.ext
  rw [fieldY_val, encodeR_toNat]
  omega

@[simp] theorem fieldN_encodeR (t : BitVec 4) (x y : Reg) (n : Fin 16) : fieldN (encodeR t x y n) = n := by
  apply Fin.ext
  rw [fieldN_val, encodeR_toNat]
  omega

/-! ### A word rebuilt from its fields (R71, R72) -/

theorem encodeA_fields {w : Word} {t : BitVec 4} (ht : fieldT w = t) : encodeA t (fieldNnn w) = w := by
  apply BitVec.eq_of_toNat_eq
  rw [← ht, encodeA_toNat, fieldT_toNat, fieldNnn_toNat]
  omega

theorem encodeK_fields {w : Word} {t : BitVec 4} {kk : Byte} (ht : fieldT w = t) (hk : fieldKk w = kk) :
    encodeK t (fieldX w) kk = w := by
  apply BitVec.eq_of_toNat_eq
  rw [← ht, ← hk, encodeK_toNat, fieldT_toNat, fieldX_val, fieldKk_toNat]
  omega

theorem encodeR_fields {w : Word} {t : BitVec 4} {n : Fin 16} (ht : fieldT w = t) (hn : fieldN w = n) :
    encodeR t (fieldX w) (fieldY w) n = w := by
  apply BitVec.eq_of_toNat_eq
  rw [← ht, ← hn, encodeR_toNat, fieldT_toNat, fieldX_val, fieldY_val, fieldN_val]
  omega

/-! ### Encoding what was decoded (R81) -/

theorem encode_decodeFamily0 (w : Word) : encode (decodeFamily0 w) = w := by
  unfold decodeFamily0
  split
  · next h => exact h.symm
  · split
    · next h => exact h.symm
    · rfl

theorem encode_decodeFamily8 {w : Word} (ht : fieldT w = 0x8) : encode (decodeFamily8 w) = w := by
  unfold decodeFamily8
  split
  case h_10 => rfl
  all_goals next hn => exact encodeR_fields ht (Fin.ext hn)

theorem encode_decodeFamilyE {w : Word} (ht : fieldT w = 0xE) : encode (decodeFamilyE w) = w := by
  unfold decodeFamilyE
  split
  case h_3 => rfl
  all_goals next hk => exact encodeK_fields ht (BitVec.eq_of_toNat_eq hk)

theorem encode_decodeFamilyF {w : Word} (ht : fieldT w = 0xF) : encode (decodeFamilyF w) = w := by
  unfold decodeFamilyF
  split
  case h_10 => rfl
  all_goals next hk => exact encodeK_fields ht (BitVec.eq_of_toNat_eq hk)

/-- No bit of a word is dropped: each arm of the dispatch keeps the fields its layout has. -/
theorem encode_decode (w : Word) : encode (decode w) = w := by
  have htop (k : BitVec 4) (h : (fieldT w).toNat = k.toNat) : fieldT w = k := BitVec.eq_of_toNat_eq h
  unfold decode
  split
  case h_1 => exact encode_decodeFamily0 w
  case h_2 h => exact encodeA_fields (htop 0x1 h)
  case h_3 h => exact encodeA_fields (htop 0x2 h)
  case h_4 h => exact encodeK_fields (htop 0x3 h) rfl
  case h_5 h => exact encodeK_fields (htop 0x4 h) rfl
  case h_6 h =>
    split
    · next hn => exact encodeR_fields (htop 0x5 h) hn
    · rfl
  case h_7 h => exact encodeK_fields (htop 0x6 h) rfl
  case h_8 h => exact encodeK_fields (htop 0x7 h) rfl
  case h_9 h => exact encode_decodeFamily8 (htop 0x8 h)
  case h_10 h =>
    split
    · next hn => exact encodeR_fields (htop 0x9 h) hn
    · rfl
  case h_11 h => exact encodeA_fields (htop 0xA h)
  case h_12 h => exact encodeA_fields (htop 0xB h)
  case h_13 h => exact encodeK_fields (htop 0xC h) rfl
  case h_14 h => exact encodeR_fields (htop 0xD h) rfl
  case h_15 h => exact encode_decodeFamilyE (htop 0xE h)
  case h_16 =>
    have hlt := (fieldT w).isLt
    simp only [imp_false] at *
    exact encode_decodeFamilyF (htop 0xF (by show _ = 15; omega))

/-- An unmapped word is carried as it was (log 20). -/
theorem eq_of_decode_eq_unmapped {w w' : Word} (h : decode w = .unmapped w') : w' = w := by
  rw [← encode_decode w, h, encode]

/-! ### The unmapped words (R76) -/

theorem decodeFamily0_eq_unmapped_iff (w : Word) :
    decodeFamily0 w = .unmapped w ↔ w ≠ 0x00E0 ∧ w ≠ 0x00EE := by
  unfold decodeFamily0
  split
  · next h => simp [h]
  · next h =>
    split
    · next h' => simp [h']
    · next h' => simp [h, h']

theorem decodeFamily8_eq_unmapped_iff (w : Word) :
    decodeFamily8 w = .unmapped w ↔ (fieldN w).val ∈ [0x8, 0x9, 0xA, 0xB, 0xC, 0xD, 0xF] := by
  unfold decodeFamily8
  split
  case h_10 =>
    have := (fieldN w).isLt
    simp only [imp_false, List.mem_cons, List.not_mem_nil, or_false, true_iff] at *
    omega
  all_goals next hn => simp [hn]

theorem decodeFamilyE_eq_unmapped_iff (w : Word) :
    decodeFamilyE w = .unmapped w ↔ (fieldKk w).toNat ≠ 0x9E ∧ (fieldKk w).toNat ≠ 0xA1 := by
  unfold decodeFamilyE
  split
  case h_3 => simp_all
  all_goals next hk => simp [hk]

theorem decodeFamilyF_eq_unmapped_iff (w : Word) :
    decodeFamilyF w = .unmapped w ↔ (fieldKk w).toNat ∉ [0x07, 0x0A, 0x15, 0x18, 0x1E, 0x29, 0x33, 0x55, 0x65] := by
  unfold decodeFamilyF
  split
  case h_10 => simp_all
  all_goals next hk => simp [hk]

/-- The table of R76 names the words that the dispatch of R74 leaves over. -/
theorem decode_eq_unmapped_iff (w : Word) : decode w = .unmapped w ↔ Word.isUnmapped w = true := by
  have hT := fieldT_toNat w
  have hN := fieldN_val w
  have hK := fieldKk_toNat w
  have hn0 : fieldN w = 0 ↔ w.toNat % 16 = 0 := by rw [Fin.ext_iff, hN]; rfl
  have hword (v : Word) : w ≠ v ↔ w.toNat ≠ v.toNat := not_congr BitVec.toNat_inj.symm
  unfold decode
  split
  case h_1 h =>
    rw [hT] at h
    simp [Word.isUnmapped, h, decodeFamily0_eq_unmapped_iff, hword]
  case h_6 h | h_10 h =>
    rw [hT] at h
    simp [Word.isUnmapped, h, ← hn0]
  case h_9 h =>
    rw [hT] at h
    simp [Word.isUnmapped, h, decodeFamily8_eq_unmapped_iff, hN]
  case h_15 h =>
    rw [hT] at h
    simp [Word.isUnmapped, h, decodeFamilyE_eq_unmapped_iff, hK]
  case h_16 =>
    have h : w.toNat / 4096 = 15 := by
      have hlt := (fieldT w).isLt
      simp only [imp_false] at *
      omega
    simp [Word.isUnmapped, h, decodeFamilyF_eq_unmapped_iff, hK]
  all_goals
    next h =>
      rw [hT] at h
      simp [Word.isUnmapped, h]

/-- Decoding the word of a well-formed instruction: its fields come back, and an unmapped word is in R76's table. -/
theorem decode_encode {i : Instr} (h : i.wellFormed = true) : decode (encode i) = i := by
  cases i with
  | unmapped w => exact (decode_eq_unmapped_iff w).mpr h
  | cls | ret => rfl
  | _ => simp [encode, decode, decodeFamily8, decodeFamilyE, decodeFamilyF]

/-- What is decoded is well formed. -/
theorem wellFormed_decode (w : Word) : (decode w).wellFormed = true := by
  cases h : decode w with
  | unmapped w' =>
    obtain rfl := eq_of_decode_eq_unmapped h
    exact (decode_eq_unmapped_iff w').mp h
  | _ => rfl

/-! ### The opcode map (R75) -/

theorem nibble_fieldN (w : Word) : nibble (fieldN w) = w.extractLsb' 0 4 := rfl

/-- The mask of a row without a second-level selector keeps the top nibble. -/
theorem and_maskF000 (w : Word) : w &&& 0xF000 = encodeA (fieldT w) 0 := by
  apply BitVec.eq_of_getLsbD_eq
  intro i hi
  simp only [encodeA, fieldT, BitVec.getLsbD_append, BitVec.getLsbD_extractLsb', BitVec.getLsbD_and]
  interval_cases i <;> simp

/-- The mask of a row selected by `n` keeps the top and the last nibble. -/
theorem and_maskF00F (w : Word) : w &&& 0xF00F = encodeR (fieldT w) 0 0 (fieldN w) := by
  apply BitVec.eq_of_getLsbD_eq
  intro i hi
  simp only [encodeR, nibble_fieldN, fieldT, BitVec.getLsbD_append, BitVec.getLsbD_extractLsb', BitVec.getLsbD_and]
  interval_cases i <;> simp [nibble]

/-- The mask of a row selected by `kk` keeps the top nibble and the low byte. -/
theorem and_maskF0FF (w : Word) : w &&& 0xF0FF = encodeK (fieldT w) 0 (fieldKk w) := by
  apply BitVec.eq_of_getLsbD_eq
  intro i hi
  simp only [encodeK, fieldT, fieldKk, BitVec.getLsbD_append, BitVec.getLsbD_extractLsb', BitVec.getLsbD_and]
  interval_cases i <;> simp [nibble]

/-- The mask of a row that is one word keeps the whole word. -/
theorem and_maskFFFF (w : Word) : w &&& 0xFFFF = w := BitVec.and_allOnes

/-- A row with the mask of the top nibble selects the words of its family. -/
theorem selects_maskF000_iff (w : Word) (t : BitVec 4) (build : Word → Instr) :
    OpcodeRow.selects ⟨0xF000, encodeA t 0, build⟩ w = true ↔ fieldT w = t := by
  simp only [OpcodeRow.selects, and_maskF000, decide_eq_true_eq]
  exact ⟨fun h => by simpa using congrArg fieldT h, fun h => by rw [h]⟩

theorem selects_maskF00F_iff (w : Word) (t : BitVec 4) (n : Fin 16) (build : Word → Instr) :
    OpcodeRow.selects ⟨0xF00F, encodeR t 0 0 n, build⟩ w = true ↔ fieldT w = t ∧ fieldN w = n := by
  simp only [OpcodeRow.selects, and_maskF00F, decide_eq_true_eq]
  exact ⟨fun h => ⟨by simpa using congrArg fieldT h, by simpa using congrArg fieldN h⟩, fun ⟨h, h'⟩ => by rw [h, h']⟩

theorem selects_maskF0FF_iff (w : Word) (t : BitVec 4) (kk : Byte) (build : Word → Instr) :
    OpcodeRow.selects ⟨0xF0FF, encodeK t 0 kk, build⟩ w = true ↔ fieldT w = t ∧ fieldKk w = kk := by
  simp only [OpcodeRow.selects, and_maskF0FF, decide_eq_true_eq]
  exact ⟨fun h => ⟨by simpa using congrArg fieldT h, by simpa using congrArg fieldKk h⟩, fun ⟨h, h'⟩ => by rw [h, h']⟩

theorem selects_maskFFFF_iff (w v : Word) (build : Word → Instr) :
    OpcodeRow.selects ⟨0xFFFF, v, build⟩ w = true ↔ w = v := by
  simp only [OpcodeRow.selects, and_maskFFFF, decide_eq_true_eq]

/-! A word that a row selects is the word of the instruction the row forms, so it decodes to it. -/

theorem decode_of_encode_eq {i : Instr} {w : Word} (hi : i.wellFormed = true) (h : encode i = w) : decode w = i :=
  h ▸ decode_encode hi

theorem decode_of_addressRow {w : Word} {build : Word → Instr} (t : BitVec 4) (hi : (build w).wellFormed = true)
    (he : encode (build w) = encodeA t (fieldNnn w)) (h : OpcodeRow.selects ⟨0xF000, encodeA t 0, build⟩ w = true) :
    decode w = build w :=
  decode_of_encode_eq hi (he.trans (encodeA_fields ((selects_maskF000_iff w t build).mp h)))

theorem decode_of_byteRow {w : Word} {build : Word → Instr} (t : BitVec 4) (hi : (build w).wellFormed = true)
    (he : encode (build w) = encodeK t (fieldX w) (fieldKk w))
    (h : OpcodeRow.selects ⟨0xF000, encodeA t 0, build⟩ w = true) : decode w = build w :=
  decode_of_encode_eq hi (he.trans (encodeK_fields ((selects_maskF000_iff w t build).mp h) rfl))

theorem decode_of_drawRow {w : Word} {build : Word → Instr} (t : BitVec 4) (hi : (build w).wellFormed = true)
    (he : encode (build w) = encodeR t (fieldX w) (fieldY w) (fieldN w))
    (h : OpcodeRow.selects ⟨0xF000, encodeA t 0, build⟩ w = true) : decode w = build w :=
  decode_of_encode_eq hi (he.trans (encodeR_fields ((selects_maskF000_iff w t build).mp h) rfl))

theorem decode_of_registerRow {w : Word} {build : Word → Instr} (t : BitVec 4) (n : Fin 16)
    (hi : (build w).wellFormed = true) (he : encode (build w) = encodeR t (fieldX w) (fieldY w) n)
    (h : OpcodeRow.selects ⟨0xF00F, encodeR t 0 0 n, build⟩ w = true) : decode w = build w :=
  have ⟨ht, hn⟩ := (selects_maskF00F_iff w t n build).mp h
  decode_of_encode_eq hi (he.trans (encodeR_fields ht hn))

theorem decode_of_subRow {w : Word} {build : Word → Instr} (t : BitVec 4) (kk : Byte)
    (hi : (build w).wellFormed = true) (he : encode (build w) = encodeK t (fieldX w) kk)
    (h : OpcodeRow.selects ⟨0xF0FF, encodeK t 0 kk, build⟩ w = true) : decode w = build w :=
  have ⟨ht, hk⟩ := (selects_maskF0FF_iff w t kk build).mp h
  decode_of_encode_eq hi (he.trans (encodeK_fields ht hk))

theorem decode_of_wordRow {w : Word} {build : Word → Instr} (v : Word) (hi : (build w).wellFormed = true)
    (he : encode (build w) = v) (h : OpcodeRow.selects ⟨0xFFFF, v, build⟩ w = true) : decode w = build w :=
  decode_of_encode_eq hi (he.trans ((selects_maskFFFF_iff w v build).mp h).symm)

/-- The dispatch of R74 decodes a word as the row of R75 that selects it says. -/
def OpcodeRow.Followed (row : OpcodeRow) : Prop := ∀ w, row.selects w = true → decode w = row.build w

theorem opcodeRowsImmediate_followed : ∀ row ∈ opcodeRowsImmediate, row.Followed := by
  simp only [opcodeRowsImmediate, List.forall_mem_cons]
  exact ⟨fun _ => decode_of_wordRow 0x00E0 rfl rfl, fun _ => decode_of_wordRow 0x00EE rfl rfl,
    fun _ => decode_of_addressRow 0x1 rfl rfl, fun _ => decode_of_addressRow 0x2 rfl rfl,
    fun _ => decode_of_byteRow 0x3 rfl rfl, fun _ => decode_of_byteRow 0x4 rfl rfl,
    fun _ => decode_of_registerRow 0x5 0x0 rfl rfl,
    fun _ => decode_of_byteRow 0x6 rfl rfl, fun _ => decode_of_byteRow 0x7 rfl rfl, List.forall_mem_nil _⟩

theorem opcodeRowsRegister_followed : ∀ row ∈ opcodeRowsRegister, row.Followed := by
  simp only [opcodeRowsRegister, List.forall_mem_cons]
  exact ⟨fun _ => decode_of_registerRow 0x8 0x0 rfl rfl, fun _ => decode_of_registerRow 0x8 0x1 rfl rfl,
    fun _ => decode_of_registerRow 0x8 0x2 rfl rfl, fun _ => decode_of_registerRow 0x8 0x3 rfl rfl,
    fun _ => decode_of_registerRow 0x8 0x4 rfl rfl, fun _ => decode_of_registerRow 0x8 0x5 rfl rfl,
    fun _ => decode_of_registerRow 0x8 0x6 rfl rfl, fun _ => decode_of_registerRow 0x8 0x7 rfl rfl,
    fun _ => decode_of_registerRow 0x8 0xE rfl rfl, fun _ => decode_of_registerRow 0x9 0x0 rfl rfl,
    fun _ => decode_of_addressRow 0xA rfl rfl, fun _ => decode_of_addressRow 0xB rfl rfl,
    fun _ => decode_of_byteRow 0xC rfl rfl, fun _ => decode_of_drawRow 0xD rfl rfl, List.forall_mem_nil _⟩

theorem opcodeRowsSub_followed : ∀ row ∈ opcodeRowsSub, row.Followed := by
  simp only [opcodeRowsSub, List.forall_mem_cons]
  exact ⟨fun _ => decode_of_subRow 0xE 0x9E rfl rfl, fun _ => decode_of_subRow 0xE 0xA1 rfl rfl,
    fun _ => decode_of_subRow 0xF 0x07 rfl rfl, fun _ => decode_of_subRow 0xF 0x0A rfl rfl,
    fun _ => decode_of_subRow 0xF 0x15 rfl rfl, fun _ => decode_of_subRow 0xF 0x18 rfl rfl,
    fun _ => decode_of_subRow 0xF 0x1E rfl rfl, fun _ => decode_of_subRow 0xF 0x29 rfl rfl,
    fun _ => decode_of_subRow 0xF 0x33 rfl rfl, fun _ => decode_of_subRow 0xF 0x55 rfl rfl,
    fun _ => decode_of_subRow 0xF 0x65 rfl rfl, List.forall_mem_nil _⟩

theorem opcodeMap_followed : ∀ row ∈ opcodeMap, row.Followed := by
  simp only [opcodeMap, List.forall_mem_append]
  exact ⟨⟨opcodeRowsImmediate_followed, opcodeRowsRegister_followed⟩, opcodeRowsSub_followed⟩

/-! Every mapped instruction has its row, which selects its word. -/

theorem selected_of_getElem {w : Word} (k : Nat) (hk : k < opcodeMap.length) (h : opcodeMap[k].selects w = true) :
    ∃ row ∈ opcodeMap, row.selects w = true := ⟨_, List.getElem_mem hk, h⟩

theorem selects_registerRow (t : BitVec 4) (n : Fin 16) (x y : Reg) (build : Word → Instr) :
    OpcodeRow.selects ⟨0xF00F, encodeR t 0 0 n, build⟩ (encodeR t x y n) = true :=
  (selects_maskF00F_iff _ t n build).mpr ⟨fieldT_encodeR t x y n, fieldN_encodeR t x y n⟩

theorem selects_subRow (t : BitVec 4) (kk : Byte) (x : Reg) (build : Word → Instr) :
    OpcodeRow.selects ⟨0xF0FF, encodeK t 0 kk, build⟩ (encodeK t x kk) = true :=
  (selects_maskF0FF_iff _ t kk build).mpr ⟨fieldT_encodeK t x kk, fieldKk_encodeK t x kk⟩

/-- Every instruction but the unmapped ones has a row that selects its word. -/
theorem exists_row_selects {i : Instr} (hi : ∀ w, i ≠ .unmapped w) : ∃ row ∈ opcodeMap, row.selects (encode i) = true := by
  cases i with
  | cls => exact selected_of_getElem 0 (by decide) rfl
  | ret => exact selected_of_getElem 1 (by decide) rfl
  | jp nnn => exact selected_of_getElem 2 (by decide) ((selects_maskF000_iff _ 0x1 _).mpr (fieldT_encodeA _ _))
  | call nnn => exact selected_of_getElem 3 (by decide) ((selects_maskF000_iff _ 0x2 _).mpr (fieldT_encodeA _ _))
  | seVxKk x kk => exact selected_of_getElem 4 (by decide) ((selects_maskF000_iff _ 0x3 _).mpr (fieldT_encodeK _ _ _))
  | sneVxKk x kk => exact selected_of_getElem 5 (by decide) ((selects_maskF000_iff _ 0x4 _).mpr (fieldT_encodeK _ _ _))
  | seVxVy x y => exact selected_of_getElem 6 (by decide) (selects_registerRow 0x5 0x0 x y _)
  | ldVxKk x kk => exact selected_of_getElem 7 (by decide) ((selects_maskF000_iff _ 0x6 _).mpr (fieldT_encodeK _ _ _))
  | addVxKk x kk => exact selected_of_getElem 8 (by decide) ((selects_maskF000_iff _ 0x7 _).mpr (fieldT_encodeK _ _ _))
  | ldVxVy x y => exact selected_of_getElem 9 (by decide) (selects_registerRow 0x8 0x0 x y _)
  | or x y => exact selected_of_getElem 10 (by decide) (selects_registerRow 0x8 0x1 x y _)
  | and x y => exact selected_of_getElem 11 (by decide) (selects_registerRow 0x8 0x2 x y _)
  | xor x y => exact selected_of_getElem 12 (by decide) (selects_registerRow 0x8 0x3 x y _)
  | addVxVy x y => exact selected_of_getElem 13 (by decide) (selects_registerRow 0x8 0x4 x y _)
  | sub x y => exact selected_of_getElem 14 (by decide) (selects_registerRow 0x8 0x5 x y _)
  | shr x y => exact selected_of_getElem 15 (by decide) (selects_registerRow 0x8 0x6 x y _)
  | subn x y => exact selected_of_getElem 16 (by decide) (selects_registerRow 0x8 0x7 x y _)
  | shl x y => exact selected_of_getElem 17 (by decide) (selects_registerRow 0x8 0xE x y _)
  | sneVxVy x y => exact selected_of_getElem 18 (by decide) (selects_registerRow 0x9 0x0 x y _)
  | ldINnn nnn => exact selected_of_getElem 19 (by decide) ((selects_maskF000_iff _ 0xA _).mpr (fieldT_encodeA _ _))
  | jpV0Nnn nnn => exact selected_of_getElem 20 (by decide) ((selects_maskF000_iff _ 0xB _).mpr (fieldT_encodeA _ _))
  | rnd x kk => exact selected_of_getElem 21 (by decide) ((selects_maskF000_iff _ 0xC _).mpr (fieldT_encodeK _ _ _))
  | drw x y n => exact selected_of_getElem 22 (by decide) ((selects_maskF000_iff _ 0xD _).mpr (fieldT_encodeR _ _ _ _))
  | skp x => exact selected_of_getElem 23 (by decide) (selects_subRow 0xE 0x9E x _)
  | sknp x => exact selected_of_getElem 24 (by decide) (selects_subRow 0xE 0xA1 x _)
  | ldVxDt x => exact selected_of_getElem 25 (by decide) (selects_subRow 0xF 0x07 x _)
  | ldVxK x => exact selected_of_getElem 26 (by decide) (selects_subRow 0xF 0x0A x _)
  | ldDtVx x => exact selected_of_getElem 27 (by decide) (selects_subRow 0xF 0x15 x _)
  | ldStVx x => exact selected_of_getElem 28 (by decide) (selects_subRow 0xF 0x18 x _)
  | addIVx x => exact selected_of_getElem 29 (by decide) (selects_subRow 0xF 0x1E x _)
  | ldFVx x => exact selected_of_getElem 30 (by decide) (selects_subRow 0xF 0x29 x _)
  | ldBVx x => exact selected_of_getElem 31 (by decide) (selects_subRow 0xF 0x33 x _)
  | ldMemVx x => exact selected_of_getElem 32 (by decide) (selects_subRow 0xF 0x55 x _)
  | ldVxMem x => exact selected_of_getElem 33 (by decide) (selects_subRow 0xF 0x65 x _)
  | unmapped w => exact absurd rfl (hi w)

/-- A word that no row selects is unmapped: were it mapped, the row of what it decodes to would select it. -/
theorem decode_of_no_row {w : Word} (h : ∀ row ∈ opcodeMap, row.selects w = false) : decode w = .unmapped w := by
  by_contra hne
  have hmapped (w') : decode w ≠ .unmapped w' := fun h' => hne (eq_of_decode_eq_unmapped h' ▸ h')
  obtain ⟨row, hmem, hsel⟩ := exists_row_selects hmapped
  rw [encode_decode, h row hmem] at hsel
  cases hsel

/-- Any two rows whose patterns do not contradict each other in a bit both fix are one row. -/
theorem opcodeMap_patterns_differ : ∀ row ∈ opcodeMap, ∀ row' ∈ opcodeMap,
    row.value &&& row'.mask = row'.value &&& row.mask → row.mask = row'.mask ∧ row.value = row'.value := by
  decide

/-- Two rows that select one word do not contradict each other. -/
theorem patterns_agree_of_selects {row row' : OpcodeRow} {w : Word} (h : row.selects w = true)
    (h' : row'.selects w = true) : row.value &&& row'.mask = row'.value &&& row.mask := by
  have hv : w &&& row.mask = row.value := of_decide_eq_true h
  have hv' : w &&& row'.mask = row'.value := of_decide_eq_true h'
  rw [← hv, ← hv', BitVec.and_assoc, BitVec.and_assoc, BitVec.and_comm row.mask]

/-! ### The statements -/

/-- Settles O1: the fields come back from the word, and the two bytes make the word. -/
theorem decodeInvertsEncode : Obligations.DecodeInvertsEncode := fun i rest hi =>
  ⟨decode_encode hi, (decodeBytes_of_word (encode i) rest).trans (by rw [decode_encode hi])⟩

/-- Settles O2: each arm of the dispatch keeps every field of the word, and what is left over is in R76's table. -/
theorem encodeInvertsDecode : Obligations.EncodeInvertsDecode := fun w => ⟨wellFormed_decode w, encode_decode w⟩

/-- Settles O3: a selected word is the word of the row's instruction, and every mapped instruction has its row. -/
theorem dispatchFollowsOpcodeMap : Obligations.DispatchFollowsOpcodeMap := fun w =>
  ⟨fun row hrow => opcodeMap_followed row hrow w, decode_of_no_row,
    fun row hrow row' hrow' h h' => opcodeMap_patterns_differ row hrow row' hrow' (patterns_agree_of_selects h h')⟩

/-- Settles O4: the dispatch, family by family, against R76's table. -/
theorem unmappedWordsAreTheTable : Obligations.UnmappedWordsAreTheTable := fun w =>
  ⟨decode_eq_unmapped_iff w, fun _ => eq_of_decode_eq_unmapped⟩

/-- Settles O5, by running the decoder on each word. -/
theorem sampleWordsDecode : Obligations.SampleWordsDecode := by
  unfold Obligations.SampleWordsDecode
  decide

end Sys2Proof
end

section
/-! SUPPORT. The frame of each operation on the state and how frames compose, and from them the jumps, the call stack, the
key skips, the timers, the key wait's entry and the memory instructions (42_control_flow.md, 43_fx_memory.md). -/

namespace Sys2Proof.Machine

/-! ### Frames -/

theorem KeepsAllBut.mono {writes writes' : Part → Prop} {s t : State} (h : KeepsAllBut writes s t)
    (hw : ∀ p, writes p → writes' p) : KeepsAllBut writes' s t :=
  ⟨fun p hp => h.1 p fun h' => hp (hw p h'), h.2⟩

/-- Two changes in a row write what either writes. -/
theorem KeepsAllBut.trans {writes writes' : Part → Prop} {s t u : State} (h : KeepsAllBut writes s t)
    (h' : KeepsAllBut writes' t u) : KeepsAllBut (fun p => writes p ∨ writes' p) s u := by
  obtain ⟨hparts, hparams, hrnd, hinputs, hdrawn⟩ := h
  obtain ⟨hparts', hparams', hrnd', hinputs', hdrawn'⟩ := h'
  refine ⟨fun p hp => ?_, hparams'.trans hparams, hrnd'.trans hrnd, hinputs'.trans hinputs, hdrawn'.trans hdrawn⟩
  rw [not_or] at hp
  exact (hparts' p hp.2).trans (hparts p hp.1)

/-- Moving `pc` after a change. -/
theorem KeepsAllBut.setPc {writes : Part → Prop} {s t : State} (h : KeepsAllBut writes s t) (a : Addr) :
    KeepsAllBut (fun p => writes p ∨ p = .pc) s (t.setPc a) := h.trans (keepsAllBut_setPc t a)

theorem KeepsAllBut.advance {writes : Part → Prop} {s t : State} (h : KeepsAllBut writes s t) :
    KeepsAllBut (fun p => writes p ∨ p = .pc) s t.advance := h.setPc _

theorem keepsAllBut_setReg (s : State) (r : Reg) (b : Byte) : KeepsAllBut (fun p => p = .reg r) s (s.setReg r b) := by
  refine ⟨fun p hp => ?_, rfl, rfl, rfl, rfl⟩
  cases p with
  | reg q => exact congrArg BitVec.toNat (State.reg_setReg_ne s b fun h => hp (h ▸ rfl))
  | _ => rfl

theorem keepsAllBut_setI (s : State) (a : Addr) : KeepsAllBut (fun p => p = .index) s (s.setI a) := by
  refine ⟨fun p hp => ?_, rfl, rfl, rfl, rfl⟩
  cases p with
  | index => exact absurd rfl hp
  | _ => rfl

theorem keepsAllBut_setDT (s : State) (b : Byte) : KeepsAllBut (fun p => p = .delay) s (s.setDT b) := by
  refine ⟨fun p hp => ?_, rfl, rfl, rfl, rfl⟩
  cases p with
  | delay => exact absurd rfl hp
  | _ => rfl

theorem keepsAllBut_setST (s : State) (b : Byte) : KeepsAllBut (fun p => p = .sound) s (s.setST b) := by
  refine ⟨fun p hp => ?_, rfl, rfl, rfl, rfl⟩
  cases p with
  | sound => exact absurd rfl hp
  | _ => rfl

theorem keepsAllBut_enterWait (s : State) (x : Reg) :
    KeepsAllBut (fun p => p = .waiting ∨ p = .waitReg) s (s.enterWait x) := by
  refine ⟨fun p hp => ?_, rfl, rfl, rfl, rfl⟩
  cases p with
  | waiting => exact absurd (.inl rfl) hp
  | waitReg => exact absurd (.inr rfl) hp
  | _ => rfl

theorem keepsAllBut_fault (s : State) (c : FaultCode) : KeepsAllBut (fun p => p = .fault) s { s with fault := c } := by
  refine ⟨fun p hp => ?_, rfl, rfl, rfl, rfl⟩
  cases p with
  | fault => exact absurd rfl hp
  | _ => rfl

/-- A push writes the entry `sp` points at, and `sp` (R34). -/
theorem keepsAllBut_pushStack (s : State) (a : Addr) (h : s.sp.val < 16) (j : Fin 16) (hj : s.sp.val = j.val) :
    KeepsAllBut (fun p => p = .stack j ∨ p = .sp) s (s.pushStack a h) := by
  refine ⟨fun p hp => ?_, rfl, rfl, rfl, rfl⟩
  cases p with
  | stack k =>
    have hjk : s.sp.val ≠ k.val := fun h' => hp (.inl (congrArg Part.stack (Fin.ext (h'.symm.trans hj))))
    simp only [State.value, State.pushStack_stack, Vector.getElem_set_ne _ _ hjk]
  | sp => exact absurd (.inr rfl) hp
  | _ => rfl

/-- A pop writes `sp` alone: the entry is not cleared (R34; D17). -/
theorem keepsAllBut_dropStack (s : State) (h : 0 < s.sp.val) : KeepsAllBut (fun p => p = .sp) s (s.dropStack h) := by
  refine ⟨fun p hp => ?_, rfl, rfl, rfl, rfl⟩
  cases p with
  | sp => exact absurd rfl hp
  | _ => rfl

/-- A state that differs in memory alone keeps every part outside a list that holds the bytes that changed. -/
theorem keepsAllBut_of_mem {writes : Part → Prop} {s t : State} (ht : t = { s with mem := t.mem })
    (hmem : ∀ a, ¬ writes (.mem a) → t.memRead a.toNat = s.memRead a.toNat) : KeepsAllBut writes s t := by
  constructor
  · intro p hp
    cases p with
    | mem a => exact congrArg BitVec.toNat (hmem a hp)
    | _ => rw [ht]; rfl
  · rw [ht]; exact ⟨rfl, rfl, rfl, rfl⟩

/-- Two addresses that agree modulo 4096 name one byte. -/
theorem part_mem_eq {e : Nat} {a : Addr} (h : e % 4096 = a.toNat % 4096) : Part.mem a = .mem (BitVec.ofNat 12 e) :=
  congrArg Part.mem (BitVec.eq_of_toNat_eq (by rw [BitVec.toNat_ofNat]; omega))

theorem keepsAllBut_memWrite (s : State) (e : Nat) (b : Byte) :
    KeepsAllBut (fun p => p = .mem (BitVec.ofNat 12 e)) s (s.memWrite e b) :=
  keepsAllBut_of_mem rfl fun _ ha => State.memRead_memWrite_ne s b fun h => ha (part_mem_eq h)

/-- Storing registers writes the bytes of the block (R190). -/
theorem keepsAllBut_storeRegs (s : State) (base : Nat) (rs : List Reg) :
    KeepsAllBut (fun p => ∃ i ∈ rs, p = .mem (BitVec.ofNat 12 (base + i.val))) s (s.storeRegs base rs) :=
  keepsAllBut_of_mem (s.storeRegs_eq base rs) fun a ha =>
    s.memRead_storeRegs_ne base a.toNat rs fun i hi h => ha ⟨i, hi, part_mem_eq h⟩

/-- Loading registers writes the registers of the block (R191). -/
theorem keepsAllBut_loadRegs (s : State) (base : Nat) (rs : List Reg) :
    KeepsAllBut (fun p => (∃ i ∈ rs, p = .reg i) ∨ p = .pc) s (s.loadRegs base rs).advance := by
  refine keepsAllBut_of_regs (by rw [s.loadRegs_eq base rs]; rfl) (.inr rfl) fun q hq => ?_
  have hnot : q ∉ rs := fun h => hq (.inl ⟨q, h, rfl⟩)
  rw [State.reg_advance, State.reg_loadRegs, if_neg hnot]

/-- The frame of FX1E: I and VF (R185). -/
theorem keepsAllBut_setI_setVF_advance (s : State) (a : Addr) (c : Bool) :
    KeepsAllBut (fun p => p = .index ∨ p = .reg 15 ∨ p = .pc) s ((s.setI a).setVF c).advance :=
  (((keepsAllBut_setI s a).trans (keepsAllBut_setReg _ vf _)).advance).mono fun _ => or_assoc.mp

/-! ### Memory read through parts, and the fetch -/

/-- An address some steps on, as a number (D2). -/
theorem addr_add_ofNat (a : Addr) (k : Nat) : a + BitVec.ofNat 12 k = BitVec.ofNat 12 (a.toNat + k) := by
  rw [BitVec.ofNat_add, BitVec.ofNat_toNat, BitVec.setWidth_eq]

/-- The byte some steps on from an address. -/
theorem State.value_mem_add (s : State) (a : Addr) (k : Nat) :
    s.value (.mem (a + BitVec.ofNat 12 k)) = (s.memRead (a.toNat + k)).toNat := by
  rw [addr_add_ofNat, State.value_mem_ofNat]

/-- States whose memories agree part by part read the same at every computed address. -/
theorem State.memRead_eq_of_value {s t : State} (h : ∀ a, s.value (.mem a) = t.value (.mem a)) (e : Nat) :
    s.memRead e = t.memRead e := by
  have he := h (BitVec.ofNat 12 e)
  rw [State.value_mem_ofNat, State.value_mem_ofNat] at he
  exact BitVec.eq_of_toNat_eq he

theorem wordOf_toNat (hi lo : Byte) : (wordOf hi lo).toNat = 256 * hi.toNat + lo.toNat := by
  rw [wordOf, BitVec.toNat_append, ← Nat.shiftLeft_add_eq_or_of_lt lo.isLt, Nat.shiftLeft_eq, Nat.mul_comm]

/-- The fetched word from the two bytes at `pc` (R53, R54). -/
theorem State.fetch_toNat (s : State) :
    s.fetch.toNat = 256 * (s.memRead s.pc.toNat).toNat + (s.memRead (s.pc.toNat + 1)).toNat := wordOf_toNat _ _

/-- Settles O6: the word is the two bytes, the one at `pc` high, and the second address wraps as 12 bits do. -/
theorem fetchIsBigEndian : Obligations.FetchIsBigEndian := fun s =>
  s.fetch_toNat.trans (congrArg (_ + ·) (s.value_mem_add s.pc 1).symm)

/-! ### Jumps and the unmapped no-op -/

/-- Settles O21: each jump writes `pc` with its target. -/
theorem jumpsGoToTheirTarget : Obligations.JumpsGoToTheirTarget := fun s _ =>
  ⟨⟨_, rfl, rfl, keepsAllBut_setPc s _⟩, ⟨_, rfl, BitVec.toNat_ofNat _ _, keepsAllBut_setPc s _⟩⟩

/-- Settles O30: the no-op is one advance. -/
theorem unmappedOnlyAdvances : Obligations.UnmappedOnlyAdvances := fun s _ =>
  ⟨_, rfl, s.pc_add_two, keepsAllBut_setPc s _⟩

/-! ### The call stack (R150, R152, R162) -/

theorem exec_call_of_room {s : State} (nnn : Addr) (h : s.sp.val < 16) :
    exec (.call nnn) s = .next ((s.pushStack (s.pc + 2) h).setPc nnn) := dif_pos h

theorem exec_call_of_full {s : State} (nnn : Addr) (h : ¬ s.sp.val < 16) :
    exec (.call nnn) s = takeFault .callStackOverflow s := dif_neg h

theorem exec_ret_of_entry {s : State} (h : 0 < s.sp.val) :
    exec .ret s = .next ((s.dropStack h).setPc (s.stackTop h)) := dif_pos h

/-- Settles O22: the push writes entry `sp`, and the jump `pc`. -/
theorem callPushesReturnAddress : Obligations.CallPushesReturnAddress := by
  intro s nnn j hj
  have hsp : s.sp.val = j.val := hj
  have hroom : s.sp.val < 16 := hsp ▸ j.isLt
  refine ⟨_, exec_call_of_room nnn hroom, ?_, rfl, rfl,
    ((keepsAllBut_pushStack s _ hroom j hsp).setPc nnn).mono fun _ => or_assoc.mp⟩
  simp only [State.value, State.setPc_stack, State.pushStack_stack, hsp, Vector.getElem_set_self]
  exact s.pc_add_two

/-- Settles O23: the entry under `sp` is read into `pc`, and `sp` moves down. -/
theorem returnPopsAddress : Obligations.ReturnPopsAddress := by
  intro s j hj
  have hsp : s.sp.val = j.val + 1 := hj
  have hentry : 0 < s.sp.val := by omega
  exact ⟨_, exec_ret_of_entry hentry, congrArg BitVec.toNat (s.stackTop_eq hentry j hsp),
    congrArg (· - 1) hsp, (keepsAllBut_dropStack s hentry).setPc _⟩

/-- Settles O24: the two calls by O22, the two returns by O23; between a push and its pop the frames keep the entry. -/
theorem nestedCallsReturnInOrder : Obligations.NestedCallsReturnInOrder := by
  intro s a b j k hj hk
  obtain ⟨t₁, h₁, hstack₁, hsp₁, hpc₁, hkeep₁⟩ := callPushesReturnAddress s a j hj
  rw [hj, ← hk] at hsp₁
  obtain ⟨t₂, h₂, hstack₂, hsp₂, -, hkeep₂⟩ := callPushesReturnAddress t₁ b k hsp₁
  rw [hsp₁] at hsp₂
  obtain ⟨t₃, h₃, hpc₃, hsp₃, hkeep₃⟩ := returnPopsAddress t₂ k hsp₂
  rw [hk] at hsp₃
  obtain ⟨t₄, h₄, hpc₄, hsp₄, hkeep₄⟩ := returnPopsAddress t₃ j hsp₃
  have hjk : j ≠ k := fun h => by rw [h] at hk; omega
  have hentry : t₃.value (.stack j) = s.pcPlus 2 := by
    rw [hkeep₃.1 (.stack j) (by simp), hkeep₂.1 (.stack j) (by simp [hjk]), hstack₁]
  refine ⟨t₁, t₂, t₃, t₄, h₁, h₂, h₃, h₄, ?_, hpc₄.trans hentry, ?_⟩
  · rw [hpc₃, hstack₂, State.pcPlus, hpc₁]
  · have hall := ((hkeep₁.trans hkeep₂).trans hkeep₃).trans hkeep₄
    refine ⟨fun p hp => ?_, hall.2⟩
    by_cases hps : p = .sp
    · rw [hps, hsp₄, hj]
    · exact hall.1 p (by simp_all)

/-- One more call after `k` of them. -/
theorem afterCalls_succ {nnn : Addr} {k : Nat} {s t : State} (h : afterCalls nnn k s = .next t) :
    afterCalls nnn (k + 1) s = exec (.call nnn) t := by
  induction k generalizing s with
  | zero =>
    cases h
    cases hcall : exec (.call nnn) t <;> simp [afterCalls, hcall]
  | succ k ih =>
    rw [afterCalls] at h ⊢
    cases hcall : exec (.call nnn) s with
    | next u =>
      simp only [hcall] at h
      exact ih h
    | fault f => simp [hcall] at h
    | refused r => simp [hcall] at h

/-- From an empty stack, as many calls as there are entries complete. -/
theorem afterCalls_of_room (nnn : Addr) {s : State} (hs : s.value .sp = 0) (k : Nat) (hk : k ≤ 16) :
    ∃ t, afterCalls nnn k s = .next t ∧ t.value .sp = k ∧ t.fault = s.fault := by
  induction k with
  | zero => exact ⟨s, rfl, hs, rfl⟩
  | succ k ih =>
    obtain ⟨t, ht, hsp, hfault⟩ := ih (by omega)
    have hroom : t.sp.val < 16 := hsp.trans_lt (by omega)
    exact ⟨_, (afterCalls_succ ht).trans (exec_call_of_room nnn hroom), congrArg (· + 1) hsp, hfault⟩

/-- Settles O25: sixteen calls fill the stack, and the next one finds it full. -/
theorem seventeenthCallOverflows : Obligations.SeventeenthCallOverflows := by
  intro s nnn hs
  refine ⟨afterCalls_of_room nnn hs, ?_⟩
  obtain ⟨t, ht, hsp, -⟩ := afterCalls_of_room nnn hs 16 (Nat.le_refl 16)
  have hfull : ¬ t.sp.val < 16 := hsp.not_lt
  exact ⟨_, (afterCalls_succ ht).trans (exec_call_of_full nnn hfull), rfl, hsp⟩

/-! ### Key skips (R158, R159) -/

theorem State.keyIndex_eq_some {s : State} {x : Reg} {k : Fin 16} (h : s.value (.reg x) = k.val) :
    s.keyIndex x = some k := by
  have h' : (s.reg x).toNat = k.val := h
  simp only [State.keyIndex, h', k.isLt, dif_pos]

theorem exec_skp_of_key {s : State} {x : Reg} {k : Fin 16} (h : s.value (.reg x) = k.val) :
    exec (.skp x) s = .next (s.skipIf (s.keyDown k)) := by
  simp only [exec, execSkp, State.keyIndex_eq_some h]

theorem exec_sknp_of_key {s : State} {x : Reg} {k : Fin 16} (h : s.value (.reg x) = k.val) :
    exec (.sknp x) s = .next (s.skipIf (!s.keyDown k)) := by
  simp only [exec, execSknp, State.keyIndex_eq_some h]

/-- Settles O28: with a key index in VX both are skips on the stored key. -/
theorem keySkips : Obligations.KeySkips := fun _ _ _ h =>
  ⟨completes_of_skipIf (exec_skp_of_key h) Bool.toNat_eq_one.symm,
    completes_of_skipIf (exec_sknp_of_key h) ((Bool.not_eq_true' _).to_iff.trans Bool.toNat_eq_zero.symm)⟩

/-- Settles O29: the skip runs in the state that has stored this cycle's snapshot. -/
theorem keySkipsSeeThisCyclesKeys : Obligations.KeySkipsSeeThisCyclesKeys := by
  intro s x k hrun hk
  have hk' : s.ready.value (.reg x) = k.val := hk
  refine ⟨fun hcur => ?_, fun hcur => ?_⟩
  · obtain ⟨t, ht, hpc, -⟩ := completes_of_skipIf (exec_skp_of_key hk') (Iff.refl _)
    exact ⟨t, by rw [step_running hrun, hcur, ht], hpc⟩
  · obtain ⟨t, ht, hpc, -⟩ := completes_of_skipIf (exec_sknp_of_key hk') (Bool.not_eq_true' _).to_iff
    exact ⟨t, by rw [step_running hrun, hcur, ht], hpc⟩

/-! ### Index, timers and the key wait's entry (R181 to R185) -/

/-- Settles O32: I takes the 12 low bits of the sum, VF the comparison of all 13. -/
theorem addToIndexFlagsFullSum : Obligations.AddToIndexFlagsFullSum := fun s x =>
  ⟨_, rfl, BitVec.toNat_ofNat _ _,
    (congrArg BitVec.toNat (State.reg_setReg_self _ vf _)).trans (flagByte_indexFlag (s.indexSum x)),
    s.pc_add_two, keepsAllBut_setI_setVF_advance s _ _⟩

/-- Settles O33: each of the three is one write, of VX, DT or ST. -/
theorem timerMoves : Obligations.TimerMoves := fun s x =>
  ⟨⟨_, rfl, value_reg_setReg_advance s x s.DT, s.pc_add_two, keepsAllBut_setReg_advance s x _⟩,
    ⟨_, rfl, rfl, s.pc_add_two, (keepsAllBut_setDT s _).advance⟩,
    ⟨_, rfl, rfl, s.pc_add_two, (keepsAllBut_setST s _).advance⟩⟩

/-- Settles O34: entering the wait writes the flag and the waiting register's name. -/
theorem waitKeyEntersWait : Obligations.WaitKeyEntersWait := fun s x =>
  ⟨_, rfl, rfl, rfl, s.pc_add_two, (keepsAllBut_enterWait s x).advance.mono fun _ => or_assoc.mp⟩

/-! ### BCD and the register block (R187 to R191) -/

/-- Settles O35: the three addresses are distinct modulo 4096, so each digit is read back past the later writes. -/
theorem bcdStoresDigits : Obligations.BcdStoresDigits := by
  intro s x
  have h01 : (s.I.toNat + 1) % 4096 ≠ s.I.toNat % 4096 := by omega
  have h02 : (s.I.toNat + 2) % 4096 ≠ s.I.toNat % 4096 := by omega
  have h12 : (s.I.toNat + 2) % 4096 ≠ (s.I.toNat + 1) % 4096 := by omega
  refine ⟨_, rfl, ?_, ?_, ?_, s.pc_add_two, ?_⟩
  · simp only [State.value, State.memRead_advance, State.memRead_memWrite, if_neg h02, if_neg h01, if_pos, hundreds_toNat]
  · refine (State.value_mem_add _ s.I 1).trans ?_
    simp only [State.value, State.memRead_advance, State.memRead_memWrite, if_neg h12, if_pos, tens_toNat]
  · refine (State.value_mem_add _ s.I 2).trans ?_
    simp only [State.value, State.memRead_advance, State.memRead_memWrite, if_pos, ones_toNat]
  · have hkeep := (((keepsAllBut_memWrite s s.I.toNat (hundreds (s.reg x))).trans
      (keepsAllBut_memWrite _ (s.I.toNat + 1) (tens (s.reg x)))).trans
      (keepsAllBut_memWrite _ (s.I.toNat + 2) (ones (s.reg x)))).advance
    rw [← addr_add_ofNat, ← addr_add_ofNat, BitVec.ofNat_toNat, BitVec.setWidth_eq] at hkeep
    exact hkeep.mono fun p hp => by rwa [or_assoc, or_assoc] at hp

/-- A register of the stored block is read back at its address. -/
theorem State.memRead_storeRegs_blockRegs (s : State) (base : Nat) {x i : Reg} (hi : i ≤ x) :
    (s.storeRegs base (blockRegs x)).memRead (base + i.val) = s.reg i :=
  s.memRead_storeRegs base (blockRegs x) (blockRegs_nodup x) i ((mem_blockRegs x i).mpr hi)

/-- A register of the loaded block holds its byte. -/
theorem State.reg_loadRegs_blockRegs (s : State) (base : Nat) {x i : Reg} (hi : i ≤ x) :
    (s.loadRegs base (blockRegs x)).reg i = s.memRead (base + i.val) := by
  rw [State.reg_loadRegs, if_pos ((mem_blockRegs x i).mpr hi)]

theorem State.pc_storeRegs_advance (s : State) (base : Nat) (rs : List Reg) :
    (s.storeRegs base rs).advance.pc = s.pc + 2 := by
  rw [State.storeRegs_eq]; rfl

theorem State.pc_loadRegs_advance (s : State) (base : Nat) (rs : List Reg) :
    (s.loadRegs base rs).advance.pc = s.pc + 2 := by
  rw [State.loadRegs_eq]; rfl

/-- Settles O36: each register is read back at its address, and the stores write no other byte. -/
theorem storeBlockWritesMemory : Obligations.StoreBlockWritesMemory := by
  intro s x
  refine ⟨_, rfl, fun i hi => ?_, ?_, ?_⟩
  · rw [State.value_mem_ofNat, State.memRead_advance, State.memRead_storeRegs_blockRegs s _ hi]
    rfl
  · exact (congrArg BitVec.toNat (State.pc_storeRegs_advance s _ _)).trans s.pc_add_two
  · have hkeep := (keepsAllBut_storeRegs s s.I.toNat (blockRegs x)).advance
    simp only [mem_blockRegs] at hkeep
    exact hkeep

/-- Settles O37: each register of the block takes its byte, and the loads write no other register. -/
theorem loadBlockReadsMemory : Obligations.LoadBlockReadsMemory := by
  intro s x
  refine ⟨_, rfl, fun i hi => ?_, ?_, ?_⟩
  · rw [State.value_mem_ofNat, State.value, State.reg_advance, State.reg_loadRegs_blockRegs s _ hi]
  · exact (congrArg BitVec.toNat (State.pc_loadRegs_advance s _ _)).trans s.pc_add_two
  · have hkeep := keepsAllBut_loadRegs s s.I.toNat (blockRegs x)
    simp only [mem_blockRegs] at hkeep
    exact hkeep

/-- Settles O38: the load reads the addresses of the store, where the stored registers are read back. -/
theorem storedBlockIsLoadedBack : Obligations.StoredBlockIsLoadedBack := by
  intro s t u x ht hI hmem
  cases ht
  refine ⟨_, rfl, fun i hi => congrArg BitVec.toNat ?_⟩
  rw [State.reg_advance, State.reg_loadRegs_blockRegs u _ hi, State.memRead_eq_of_value hmem, hI,
    State.memRead_advance, State.memRead_storeRegs_blockRegs s _ hi]

/-- Settles O8: the two bytes the next fetch reads are two neighbours of the stored block, also across the wrap. -/
theorem storedBlockIsFetched : Obligations.StoredBlockIsFetched := by
  intro s x i j hij hj hpc
  have hi : i ≤ x := Fin.le_def.mpr (by have := Fin.le_def.mp hj; omega)
  have hpc' : (s.pc + 2).toNat = (s.I.toNat + i.val) % 4096 := s.pc_add_two.trans hpc
  have hlow : (s.pc + 2).toNat + 1 ≡ s.I.toNat + j.val [MOD 4096] := by
    rw [hpc', hij]
    exact (Nat.mod_modEq _ _).add_right 1
  refine ⟨_, rfl, (State.fetch_toNat _).trans ?_⟩
  rw [State.pc_storeRegs_advance, State.memRead_advance, State.memRead_advance, ← State.memRead_mod _ (_ + 1), hlow,
    State.memRead_mod, hpc', State.memRead_mod, State.memRead_storeRegs_blockRegs s _ hi,
    State.memRead_storeRegs_blockRegs s _ hj]
  rfl

end Sys2Proof.Machine
end

section
/-! SUPPORT. DXYN (44_sprite.md R211 to R216): what drawing does to a canvas, composed row by row, and the statements on
one draw and on two. -/

namespace Sys2Proof.Machine

/-! ### What drawing does to a canvas -/

/-- From one canvas to another exactly the pixels of a set flipped, and the collision flag was raised exactly when one of
them was set (R211). -/
def Canvas.Flips (lit : Fin 32 → Fin 64 → Prop) (k k' : Canvas) : Prop :=
  (∀ r c, k'.fb.pixel r c ≠ k.fb.pixel r c ↔ lit r c) ∧
    (k'.collide = true ↔ k.collide = true ∨ ∃ r c, lit r c ∧ k.fb.pixel r c = true)

theorem Canvas.flips_plotRow (k : Canvas) (row col : Nat) (b : Byte) :
    k.Flips (RowLights row col b 8) (k.plotRow row col b) := k.plotRow_spec row col b

/-- Drawing one set of pixels and then another, disjoint one. -/
theorem Canvas.Flips.trans {lit lit' : Fin 32 → Fin 64 → Prop} {k k' k'' : Canvas} (h : k.Flips lit k')
    (h' : k'.Flips lit' k'') (hdisjoint : ∀ r c, lit' r c → ¬ lit r c) :
    k.Flips (fun r c => lit r c ∨ lit' r c) k'' := by
  obtain ⟨hflip, hcollide⟩ := h
  obtain ⟨hflip', hcollide'⟩ := h'
  refine ⟨fun r c => pixel_change_trans (hflip' r c) (hflip r c) (hdisjoint r c), ?_⟩
  have hsame : ∀ r c, lit' r c → k'.fb.pixel r c = k.fb.pixel r c :=
    fun r c hl => not_not.mp fun hne => hdisjoint r c hl ((hflip r c).mp hne)
  rw [hcollide', hcollide, or_assoc]
  refine or_congr_right ⟨?_, ?_⟩
  · rintro (⟨r, c, hl, hp⟩ | ⟨r, c, hl, hp⟩)
    · exact ⟨r, c, .inl hl, hp⟩
    · exact ⟨r, c, .inr hl, hsame r c hl ▸ hp⟩
  · rintro ⟨r, c, hl | hl, hp⟩
    · exact .inl ⟨r, c, hl, hp⟩
    · exact .inr ⟨r, c, hl, (hsame r c hl).trans hp⟩

/-- The first `m` rows of a sprite light pixel (r, c). -/
def State.RowsLight (s : State) (x0 y0 : Byte) (base m : Nat) (r : Fin 32) (c : Fin 64) : Prop :=
  ∃ i < m, RowLights (y0.toNat + i) x0.toNat (s.memRead (base + i)) 8 r c

theorem State.rowsLight_succ (s : State) (x0 y0 : Byte) (base m : Nat) (r : Fin 32) (c : Fin 64) :
    s.RowsLight x0 y0 base (m + 1) r c ↔
      s.RowsLight x0 y0 base m r c ∨ RowLights (y0.toNat + m) x0.toNat (s.memRead (base + m)) 8 r c := by
  simp only [State.RowsLight, Nat.lt_succ_iff_lt_or_eq, or_and_right, exists_or, exists_eq_left]

/-- A sprite of at most 32 rows does not wrap onto itself, so drawing it flips the pixels its rows light. -/
theorem State.flips_plotSprite (s : State) (x0 y0 : Byte) (base m : Nat) (hm : m ≤ 32) :
    Canvas.Flips (s.RowsLight x0 y0 base m) ⟨s.fb, false⟩ (s.plotSprite x0 y0 base m) := by
  induction m with
  | zero => simp [Canvas.Flips, State.RowsLight, State.plotSprite]
  | succ m ih =>
    rw [State.plotSprite_succ, funext₂ fun r c => propext (s.rowsLight_succ x0 y0 base m r c)]
    refine (ih (by omega)).trans (Canvas.flips_plotRow _ _ _ _) ?_
    rintro r c ⟨_, _, hrow, _⟩ ⟨i, hi, _, _, hrow', _⟩
    omega

/-! ### One draw -/

theorem flagByte_toNat (c : Bool) : (flagByte c).toNat = c.toNat := by cases c <;> rfl

theorem keepsAllBut_paint (s : State) (g : Framebuffer) :
    KeepsAllBut (fun p => (∃ r c, p = .pixel r c) ∨ p = .dirty) s (s.paint g) := by
  refine ⟨fun p hp => ?_, rfl, rfl, rfl, rfl⟩
  cases p with
  | pixel r c => exact absurd (.inl ⟨r, c, rfl⟩) hp
  | dirty => exact absurd (.inr rfl) hp
  | _ => rfl

/-- The frame of DXYN: pixels, VF, `dirty` and `pc`. -/
theorem keepsAllBut_paint_setVF_advance (s : State) (g : Framebuffer) (c : Bool) :
    KeepsAllBut (fun p => (∃ r c, p = .pixel r c) ∨ p = .reg 15 ∨ p = .dirty ∨ p = .pc) s
      ((s.paint g).setVF c).advance :=
  (((keepsAllBut_paint s g).trans (keepsAllBut_setReg _ vf _)).advance).mono fun p hp => by
    rcases hp with ((hp | hp) | hp) | hp
    exacts [.inl hp, .inr (.inr (.inl hp)), .inr (.inl hp), .inr (.inr (.inr hp))]

/-- Settles O40: the canvas of the loops is the screen painted, its collision flag what VF is set to. -/
theorem drawFlipsTheSprite : Obligations.DrawFlipsTheSprite := by
  intro s x y n
  obtain ⟨hflip, hcollide⟩ := s.flips_plotSprite (s.reg x) (s.reg y) s.I.toNat n.val (by omega)
  have hvf (g : Framebuffer) (c : Bool) : (((s.paint g).setVF c).advance).value (.reg 15) = c.toNat :=
    (congrArg BitVec.toNat (State.reg_setReg_self _ vf _)).trans (flagByte_toNat c)
  refine ⟨_, rfl, hflip, ?_, ?_, rfl, s.pc_add_two, keepsAllBut_paint_setVF_advance s _ _⟩
  · rw [hvf, Bool.toNat_eq_zero, Bool.toNat_eq_one]
    exact Bool.eq_false_or_eq_true _ |>.symm
  · rw [hvf, Bool.toNat_eq_one, hcollide]
    exact or_iff_right Bool.false_ne_true

/-! ### Two draws (R215; log 26) -/

/-- What the sprite lights depends on the coordinates, I and memory alone. -/
theorem spriteLights_congr {s u : State} {x y : Reg} (hI : u.I = s.I) (hx : u.reg x = s.reg x)
    (hy : u.reg y = s.reg y) (hmem : ∀ a, u.value (.mem a) = s.value (.mem a)) (n : Fin 16) :
    SpriteLights u x y n = SpriteLights s x y n := by
  unfold SpriteLights
  simp only [hI, hx, hy, State.memRead_eq_of_value hmem]

/-- A byte other than 0 has a 1 among its bits 7 down to 0. -/
theorem byte_ne_zero_iff (b : Byte) : b ≠ 0 ↔ ∃ j < 8, b.getLsbD (7 - j) = true := by
  constructor
  · intro hb
    by_contra hnone
    push Not at hnone
    refine hb (BitVec.eq_of_getLsbD_eq fun i hi => ?_)
    have hbit := hnone (7 - i) (by omega)
    rw [show 7 - (7 - i) = i by omega] at hbit
    exact (Bool.eq_false_iff.mpr hbit).trans BitVec.getLsbD_zero.symm
  · rintro ⟨j, -, hj⟩ rfl
    simp at hj

/-- A sprite lights some pixel exactly when one of its bytes has a 1. -/
theorem exists_spriteLights_iff (s : State) (x y : Reg) (n : Fin 16) :
    (∃ r c, SpriteLights s x y n r c) ↔ ∃ i < n.val, s.memRead (s.I.toNat + i) ≠ 0 := by
  constructor
  · rintro ⟨r, c, i, hi, j, hj, -, -, hbit⟩
    exact ⟨i, hi, (byte_ne_zero_iff _).mpr ⟨j, hj, hbit⟩⟩
  · rintro ⟨i, hi, hb⟩
    obtain ⟨j, hj, hbit⟩ := (byte_ne_zero_iff _).mp hb
    exact ⟨Fin.ofNat 32 ((s.reg y).toNat + i), Fin.ofNat 64 ((s.reg x).toNat + j), i, hi, j, hj, rfl, rfl, hbit⟩

/-- Settles O41: both draws flip the same pixels, so each is flipped back, and a lit pixel of the second draw was dark
before the first. -/
theorem drawTwiceRestoresTheScreen : Obligations.DrawTwiceRestoresTheScreen := by
  intro s t u x y n ht hfb hI hx hy hmem
  obtain ⟨t', ht', hflip₁, -⟩ := drawFlipsTheSprite s x y n
  obtain rfl : t = t' := by rw [ht] at ht'; exact Host.Outcome.next.inj ht'
  obtain ⟨v, hv, hflip₂, -, hvf, -⟩ := drawFlipsTheSprite u x y n
  rw [spriteLights_congr hI hx hy hmem, hfb] at hflip₂ hvf
  have hvf' : v.value (.reg 15) = 1 ↔ ∃ r c, SpriteLights s x y n r c ∧ s.fb.pixel r c = false := by
    rw [hvf]
    refine exists₂_congr fun r c => and_congr_right fun hl => ?_
    have hne := (hflip₁ r c).mpr hl
    rw [← Bool.eq_not] at hne
    rw [hne, Bool.not_eq_true']
  refine ⟨v, hv, Framebuffer.ext_pixel fun r c => ?_, hvf', fun hdark => ?_⟩
  · by_cases hl : SpriteLights s x y n r c
    · have h₁ := (hflip₁ r c).mpr hl
      have h₂ := (hflip₂ r c).mpr hl
      rw [← Bool.eq_not] at h₁ h₂
      rw [h₂, h₁, Bool.not_not]
    · exact (not_not.mp (mt (hflip₂ r c).mp hl)).trans (not_not.mp (mt (hflip₁ r c).mp hl))
  · rw [hvf', ← exists_spriteLights_iff]
    exact exists₂_congr fun r c => and_iff_left_of_imp (hdark r c)

end Sys2Proof.Machine
end

section
/-! SUPPORT. What one instruction can do, said once for all of them: when it faults, which parts it may write (10_state,
its sections 2, 5 and 6), and that it answers a next state whose memory is still canonical. -/

namespace Sys2Proof.Machine

/-! ### Faults (60_exceptions R251, R252) -/

theorem FaultCode.bits_toNat_inj {c d : FaultCode} (h : c.bits.toNat = d.bits.toNat) : c = d := by
  revert h
  cases c <;> cases d <;> decide

/-- A faulting instruction takes its fault. -/
theorem exec_of_fault {i : Instr} {s : State} (h : faultIn i s ≠ .none) : exec i s = takeFault (faultIn i s) s := by
  cases i
  case call nnn =>
    have hfull : s.sp.val = 16 := not_not.mp fun hn => h (if_neg hn)
    rw [exec_call_of_full nnn (by omega), faultIn, if_pos hfull]
  case ret =>
    have hempty : s.sp.val = 0 := not_not.mp fun hn => h (if_neg hn)
    rw [faultIn, if_pos hempty]
    exact dif_neg (by omega)
  case skp x | sknp x =>
    have hbig : 15 < (s.reg x).toNat := not_not.mp fun hn => h (if_neg hn)
    have hnone : s.keyIndex x = none := dif_neg (by omega)
    simp only [exec, execSkp, execSknp, hnone, faultIn, if_pos hbig]
  all_goals exact absurd rfl h

theorem room_of_no_fault {nnn : Addr} {s : State} (h : faultIn (.call nnn) s = .none) : s.sp.val < 16 := by
  by_contra hn
  rw [faultIn, if_pos (by omega)] at h
  cases h

theorem entry_of_no_fault {s : State} (h : faultIn .ret s = .none) : 0 < s.sp.val := by
  by_contra hn
  rw [faultIn, if_pos (by omega)] at h
  cases h

theorem key_of_no_fault {x : Reg} {s : State} (h : faultIn (.skp x) s = .none) :
    ∃ k : Fin 16, s.value (.reg x) = k.val := by
  refine ⟨⟨(s.reg x).toNat, ?_⟩, rfl⟩
  by_contra hn
  rw [faultIn, if_pos (by omega)] at h
  cases h

/-! ### What an instruction may write -/

/-- The parts an instruction may write in a state: memory by FX33 and FX55, a register as R24 lists it, a stack entry
where `sp` points by 2NNN, and so on; `fault` when it faults; the stored keys never. -/
def mayWrite (i : Instr) (s : State) : Part → Prop
  | .mem _ => (∃ x, i = .ldBVx x) ∨ ∃ x, i = .ldMemVx x
  | .reg r => touchesReg i r = true
  | .index => (∃ nnn, i = .ldINnn nnn) ∨ (∃ x, i = .addIVx x) ∨ ∃ x, i = .ldFVx x
  | .pc => True
  | .stack j => s.sp.val = j.val ∧ ∃ nnn, i = .call nnn
  | .sp => i = .ret ∨ ∃ nnn, i = .call nnn
  | .delay => ∃ x, i = .ldDtVx x
  | .sound => ∃ x, i = .ldStVx x
  | .pixel _ _ | .dirty => i = .cls ∨ ∃ x y n, i = .drw x y n
  | .key _ => False
  | .waiting | .waitReg => ∃ x, i = .ldVxK x
  | .fault => faultIn i s ≠ .none

/-- What an instruction leaves: the parts it may not write are kept, and so is the canonical form of memory. -/
def Leaves (i : Instr) (s t : State) : Prop :=
  KeepsAllBut (mayWrite i s) s t ∧ (Memory.wf s.params.font s.mem → Memory.wf t.params.font t.mem)

theorem State.resultAndFlag_mem (s : State) (x y : Reg) (result : Byte → Byte → Byte) (flag : Byte → Byte → Bool) :
    (s.resultAndFlag x y result flag).mem = s.mem := by
  rw [State.resultAndFlag_eq]

theorem State.resultAndFlag_params (s : State) (x y : Reg) (result : Byte → Byte → Byte) (flag : Byte → Byte → Bool) :
    (s.resultAndFlag x y result flag).params = s.params := by
  rw [State.resultAndFlag_eq]

/-- An instruction that does not fault completes and leaves what it may not write. -/
theorem completes_of_no_fault {i : Instr} {s : State} (h : faultIn i s = .none) : Completes i s (Leaves i s) := by
  cases i
  case cls =>
    refine ⟨_, rfl, (keepsAllBut_paint_advance s _).mono ?_, id⟩
    rintro p (⟨r, c, rfl⟩ | rfl | rfl) <;> simp [mayWrite]
  case drw x y n =>
    refine ⟨_, rfl, (keepsAllBut_paint_setVF_advance s _ _).mono ?_, id⟩
    rintro p (⟨r, c, rfl⟩ | rfl | rfl | rfl) <;> simp [mayWrite, touchesReg]
  case ret =>
    have hentry := entry_of_no_fault h
    refine ⟨_, exec_ret_of_entry hentry, ((keepsAllBut_dropStack s hentry).setPc _).mono ?_, id⟩
    rintro p (rfl | rfl) <;> simp [mayWrite]
  case call nnn =>
    have hroom := room_of_no_fault h
    refine ⟨_, exec_call_of_room nnn hroom, ((keepsAllBut_pushStack s _ hroom ⟨_, hroom⟩ rfl).setPc _).mono ?_, id⟩
    rintro p ((rfl | rfl) | rfl) <;> simp [mayWrite]
  case skp x =>
    obtain ⟨k, hk⟩ := key_of_no_fault h
    refine ⟨_, exec_skp_of_key hk, (keepsAllBut_skipIf s _).mono ?_, id⟩
    rintro p rfl
    trivial
  case sknp x =>
    obtain ⟨k, hk⟩ := key_of_no_fault h
    refine ⟨_, exec_sknp_of_key hk, (keepsAllBut_skipIf s _).mono ?_, id⟩
    rintro p rfl
    trivial
  case jp nnn | jpV0Nnn nnn | seVxKk x kk | sneVxKk x kk | seVxVy x y | sneVxVy x y | unmapped w =>
    refine ⟨_, rfl, (keepsAllBut_setPc s _).mono ?_, id⟩
    rintro p rfl
    trivial
  case ldVxKk x _ | addVxKk x _ | ldVxVy x _ | or x _ | and x _ | xor x _ | rnd x _ | ldVxDt x =>
    refine ⟨_, rfl, (keepsAllBut_setReg_advance s x _).mono ?_, id⟩
    rintro p (rfl | rfl) <;> simp [mayWrite, touchesReg]
  case addVxVy x y =>
    obtain ⟨t, ht, -, -, -, hkeep⟩ := addSetsCarry s x y
    cases ht
    refine ⟨_, rfl, hkeep.mono ?_, id⟩
    rintro p (rfl | rfl | rfl) <;> simp [mayWrite, touchesReg]
  case sub x _ | subn x _ | shr x _ | shl x _ =>
    refine ⟨_, rfl, (keepsAllBut_advance_of_regs (s.resultAndFlag_eq x _ _ _)
      fun q => s.reg_resultAndFlag_ne x _ q _ _).mono ?_, fun hmem => ?_⟩
    · rintro p (rfl | rfl | rfl) <;> simp [mayWrite, touchesReg]
    · rwa [State.advance_mem, State.advance_params, State.resultAndFlag_mem, State.resultAndFlag_params]
  case ldINnn _ | ldFVx _ =>
    refine ⟨_, rfl, (keepsAllBut_setI_advance s _).mono ?_, id⟩
    rintro p (rfl | rfl) <;> simp [mayWrite]
  case addIVx x =>
    refine ⟨_, rfl, (keepsAllBut_setI_setVF_advance s _ _).mono ?_, id⟩
    rintro p (rfl | rfl | rfl) <;> simp [mayWrite, touchesReg]
  case ldDtVx x =>
    refine ⟨_, rfl, ((keepsAllBut_setDT s _).advance).mono ?_, id⟩
    rintro p (rfl | rfl) <;> simp [mayWrite]
  case ldStVx x =>
    refine ⟨_, rfl, ((keepsAllBut_setST s _).advance).mono ?_, id⟩
    rintro p (rfl | rfl) <;> simp [mayWrite]
  case ldVxK x =>
    refine ⟨_, rfl, ((keepsAllBut_enterWait s x).advance).mono ?_, id⟩
    rintro p ((rfl | rfl) | rfl) <;> simp [mayWrite]
  case ldBVx x =>
    obtain ⟨t, ht, -, -, -, -, hkeep⟩ := bcdStoresDigits s x
    cases ht
    refine ⟨_, rfl, hkeep.mono ?_, fun hmem => ?_⟩
    · rintro p (rfl | rfl | rfl | rfl) <;> simp [mayWrite]
    · exact State.wf_memWrite _ _ (State.wf_memWrite _ _ (State.wf_memWrite _ _ hmem))
  case ldMemVx x =>
    refine ⟨_, rfl, ((keepsAllBut_storeRegs s _ _).advance).mono ?_, State.wf_storeRegs _ _⟩
    rintro p (⟨i, -, rfl⟩ | rfl) <;> simp [mayWrite]
  case ldVxMem x =>
    refine ⟨_, rfl, (keepsAllBut_loadRegs s _ _).mono ?_, fun hmem => ?_⟩
    · rintro p (⟨i, hi, rfl⟩ | rfl)
      · simpa [mayWrite, touchesReg] using (mem_blockRegs x i).mp hi
      · trivial
    · rw [State.loadRegs_eq]
      exact hmem

/-- Every instruction completes, faulting or not, and leaves what it may not write. -/
theorem completes_leaves (i : Instr) (s : State) : Completes i s (Leaves i s) := by
  by_cases h : faultIn i s = .none
  · exact completes_of_no_fault h
  · refine ⟨_, exec_of_fault h, (keepsAllBut_fault s _).mono ?_, id⟩
    rintro p rfl
    exact h

theorem leaves_of_exec {i : Instr} {s t : State} (h : exec i s = .next t) : Leaves i s t := by
  obtain ⟨t', ht', hleaves⟩ := completes_leaves i s
  rw [h] at ht'
  rwa [Host.Outcome.next.inj ht']

/-- A part an instruction may not write is as before. -/
theorem value_of_exec {i : Instr} {s t : State} (h : exec i s = .next t) {p : Part} (hp : ¬ mayWrite i s p) :
    t.value p = s.value p := (leaves_of_exec h).1.1 p hp

/-- The fault code stands unless the instruction faults. -/
theorem fault_of_exec {i : Instr} {s t : State} (h : exec i s = .next t) (hf : faultIn i s = .none) :
    t.fault = s.fault := FaultCode.bits_toNat_inj (value_of_exec (p := .fault) h (not_not.mpr hf))

/-- Settles O45: the fault is taken and writes its code alone; otherwise the code is no part the instruction may
write. -/
theorem faultingInstructionCommitsNothing : Obligations.FaultingInstructionCommitsNothing := by
  refine fun i s => ⟨fun h => ⟨_, exec_of_fault h, rfl, keepsAllBut_fault s _⟩, fun h => ?_⟩
  obtain ⟨t, ht, -⟩ := completes_leaves i s
  exact ⟨t, ht, fault_of_exec ht h⟩

end Sys2Proof.Machine
end

section
/-! SUPPORT. What one cycle can do to a part of the state (40_cycle_and_dispatch R100 to R108, 45_timers_and_keywait.md),
and the statements on steps settled from it. -/

namespace Sys2Proof.Machine

/-! ### The state an instruction executes in -/

theorem faultIn_ready (i : Instr) (s : State) : faultIn i s.ready = faultIn i s := by cases i <;> rfl

theorem mayWrite_ready (i : Instr) (s : State) (p : Part) : mayWrite i s.ready p = mayWrite i s p := by
  cases p with
  | fault => rw [mayWrite, mayWrite, faultIn_ready]
  | _ => rfl

/-- Storing the snapshot, clearing `dirty` and counting the timers touches no other part. -/
theorem value_ready (s : State) {p : Part} (hkey : ∀ k, p ≠ .key k) (hdelay : p ≠ .delay) (hsound : p ≠ .sound)
    (hdirty : p ≠ .dirty) : s.ready.value p = s.value p := by
  cases p with
  | key k => exact absurd rfl (hkey k)
  | delay => exact absurd rfl hdelay
  | sound => exact absurd rfl hsound
  | dirty => exact absurd rfl hdirty
  | _ => rfl

theorem value_latchInput (s : State) (i : Input) {p : Part} (hkey : ∀ k, p ≠ .key k) (hdirty : p ≠ .dirty) :
    (s.latchInput i).value p = s.value p := by
  cases p with
  | key k => exact absurd rfl (hkey k)
  | dirty => exact absurd rfl hdirty
  | _ => rfl

/-- Resolving a wait writes the waiting register and the flag alone. -/
theorem value_keyWaitResolve (s : State) (keysPrev : BitVec 16) {p : Part} (hreg : p ≠ .reg s.waitReg)
    (hwait : p ≠ .waiting) : (s.keyWaitResolve keysPrev).value p = s.value p := by
  rcases s.keyWaitResolve_cases keysPrev with ⟨-, h⟩ | ⟨k, -, h⟩
  · rw [h]
  · rw [h]
    cases p with
    | reg q => exact congrArg BitVec.toNat (State.reg_setReg_ne s _ fun h' => hreg (h' ▸ rfl))
    | waiting => exact absurd rfl hwait
    | _ => rfl

/-- The parts that no cycle changes but through its instruction. -/
def Part.ByInstructionAlone : Part → Prop
  | .key _ | .dirty | .delay | .sound | .reg _ | .waiting => False
  | .mem _ | .index | .pc | .stack _ | .sp | .pixel _ _ | .waitReg | .fault => True

/-- A step that changes a part that only instructions write is a running core's, and its instruction may write it. -/
theorem mayWrite_of_step {s t : State} (h : step s = .next t) {p : Part} (halone : p.ByInstructionAlone)
    (hp : t.value p ≠ s.value p) : s.Running ∧ mayWrite s.current s p := by
  have hne {q : Part} (hq : ¬ q.ByInstructionAlone) : p ≠ q := fun h => hq (h ▸ halone)
  rcases step_cases h with ⟨-, rfl⟩ | ⟨-, -, rfl⟩ | ⟨hrun, hexec⟩
  · exact absurd rfl hp
  · rw [value_keyWaitResolve _ _ (hne id) (hne id), value_latchInput _ _ (fun _ => hne id) (hne id)] at hp
    exact absurd rfl hp
  · refine ⟨hrun, not_not.mp fun hnot => hp ?_⟩
    rw [← mayWrite_ready] at hnot
    rw [value_of_exec hexec hnot, value_ready s (fun _ => hne id) (hne id) (hne id) (hne id)]

/-! ### Statements on every step -/

theorem next_of_running {s : State} (h : s.Running) : ∃ t, step s = .next t ∧ exec s.current s.ready = .next t := by
  obtain ⟨t, ht, -⟩ := completes_leaves s.current s.ready
  exact ⟨t, (step_running h).trans ht, ht⟩

theorem keyWaitResolve_params (s : State) (keysPrev : BitVec 16) : (s.keyWaitResolve keysPrev).params = s.params := by
  rcases s.keyWaitResolve_cases keysPrev with ⟨-, h⟩ | ⟨k, -, h⟩
  · rw [h]
  · rw [h]; rfl

/-- Settles O43: a halted core answers itself, a waiting one the state after its look at the keys, and every instruction
of a running one completes. -/
theorem everyStepAnswersNext : Obligations.EveryStepAnswersNext := by
  intro s
  by_cases hf : s.fault = .none
  · cases hw : s.waiting with
    | true => exact ⟨_, step_waiting hf hw, keyWaitResolve_params _ _⟩
    | false =>
      obtain ⟨t, ht, hexec⟩ := next_of_running ⟨hf, hw⟩
      obtain ⟨-, -, -, -, hparams⟩ := exec_keeps_ports hexec
      exact ⟨t, ht, hparams⟩
  · exact ⟨s, step_halted hf, rfl⟩

/-- Settles O44: a halted step answers its own state, so any number of them does. -/
theorem haltedCoreNeverChanges : Obligations.HaltedCoreNeverChanges := fun s n h =>
  ⟨run_of_step_self (M := Sys2Proof.core) (step_halted h) n, by simp [State.dirtyOut, h]⟩

/-- Settles O42: the decoded bytes are the current instruction, and its state is the one after steps (1), (2) and (4);
neither the key wait nor an instruction writes the stored keys or the ports. -/
theorem stepRunsTheDecodedInstruction : Obligations.StepRunsTheDecodedInstruction := by
  refine ⟨fun s i hrun _ hbytes => ?_, fun s p rest hf hinputs => ?_⟩
  · have hcur : s.current = i := (Prod.mk.inj (Except.ok.inj hbytes)).1
    rw [step_running hrun, hcur]
    rfl
  · have hnext := State.nextInput_cons hinputs
    refine ⟨hnext, ?_⟩
    cases hw : s.waiting with
    | true =>
      refine ⟨_, step_waiting hf hw, ?_⟩
      rw [hnext]
      rcases (s.latchInput p).keyWaitResolve_cases s.keys with ⟨-, h⟩ | ⟨k, -, h⟩
      · rw [h]; exact ⟨rfl, rfl, congrArg List.tail hinputs⟩
      · rw [h]; exact ⟨rfl, rfl, congrArg List.tail hinputs⟩
    | false =>
      obtain ⟨t, ht, hexec⟩ := next_of_running ⟨hf, hw⟩
      obtain ⟨hkeys, hrnd, hrest, -, -⟩ := exec_keeps_ports hexec
      refine ⟨t, ht, hkeys.trans (congrArg Input.keys hnext), hrnd.trans (congrArg Input.rnd hnext), ?_⟩
      exact hrest.trans (congrArg List.tail hinputs)

/-! ### Faults in a cycle -/

/-- A running core whose instruction faults ends the cycle with its code, in the state the instruction found. -/
theorem step_of_fault {s : State} (hrun : s.Running) (h : faultIn s.current s ≠ .none) :
    step s = .next { s.ready with fault := faultIn s.current s } := by
  rw [← faultIn_ready] at h ⊢
  exact (step_running hrun).trans (exec_of_fault h)

theorem faultIn_call {nnn : Addr} {s : State} (h : faultIn (.call nnn) s ≠ .none) :
    faultIn (.call nnn) s = .callStackOverflow := (ite_eq_or_eq _ _ _).resolve_right h

theorem faultIn_ret {s : State} (h : faultIn .ret s ≠ .none) : faultIn .ret s = .callStackUnderflow :=
  (ite_eq_or_eq _ _ _).resolve_right h

theorem faultIn_skp {x : Reg} {s : State} (h : faultIn (.skp x) s ≠ .none) :
    faultIn (.skp x) s = .keyIndexOutOfRange := (ite_eq_or_eq _ _ _).resolve_right h

/-- Settles O46: the faulting cycle is the ready state with its code, so what it keeps is what steps (1), (2) and (4)
keep. -/
theorem faultIsPrecise : Obligations.FaultIsPrecise := by
  intro s hrun h
  refine ⟨_, step_of_fault hrun h, rfl, ?_, ?_, ?_, rfl, rfl, countDown_toNat _, countDown_toNat _, ?_⟩
  · rintro ⟨nnn, hcur⟩
    rw [hcur] at h
    rw [State.faultOut, hcur, faultIn_call h]
    rfl
  · intro hcur
    rw [hcur] at h
    rw [State.faultOut, hcur, faultIn_ret h]
    rfl
  · rintro ⟨x, hcur | hcur⟩
    all_goals
      rw [hcur] at h
      rw [State.faultOut, hcur]
      exact congrArg (fun c => (FaultCode.bits c).toNat) (faultIn_skp (x := x) h)
  · intro p hkey hdelay hsound hdirty hfault
    rw [(keepsAllBut_fault s.ready _).1 p hfault, value_ready s hkey hdelay hsound hdirty]

/-! ### Timers -/

/-- Settles O47: the timers are counted before the instruction, which writes them in FX15 and FX18 alone. -/
theorem timersCountEveryRunningCycle : Obligations.TimersCountEveryRunningCycle := by
  intro s hrun
  obtain ⟨t, ht, hexec⟩ := next_of_running hrun
  refine ⟨t, ht, fun x hcur => ?_, fun x hcur => ?_, fun hnot => ?_, fun x hcur => ?_, fun hnot => ?_⟩
  · rw [hcur] at hexec
    obtain rfl := Host.Outcome.next.inj hexec
    rw [value_reg_setReg_advance]
    exact countDown_toNat s.DT
  · rw [hcur] at hexec
    obtain rfl := Host.Outcome.next.inj hexec
    rfl
  · rw [value_of_exec hexec (p := .delay) fun ⟨x, hx⟩ => hnot x hx]
    exact countDown_toNat s.DT
  · rw [hcur] at hexec
    obtain rfl := Host.Outcome.next.inj hexec
    rfl
  · rw [value_of_exec hexec (p := .sound) fun ⟨x, hx⟩ => hnot x hx]
    exact countDown_toNat s.ST

/-! ### Parts that only their instructions change -/

theorem bool_eq_of_toNat_eq {a b : Bool} (h : a.toNat = b.toNat) : a = b := by
  rw [Bool.eq_iff_iff, ← Bool.toNat_eq_one, h, Bool.toNat_eq_one]

/-- Settles O51: a pixel is changed by instructions alone, and of those by 00E0 and DXYN. -/
theorem screenChangesOnlyByClearAndDraw : Obligations.ScreenChangesOnlyByClearAndDraw := fun _ _ r c h hne =>
  mayWrite_of_step h (p := .pixel r c) trivial fun heq => hne (bool_eq_of_toNat_eq heq)

/-- Settles O52: I is changed by instructions alone, and of those by ANNN, FX1E and FX29. -/
theorem indexChangesOnlyByItsWriters : Obligations.IndexChangesOnlyByItsWriters := fun _ _ h hne =>
  mayWrite_of_step h (p := .index) trivial fun heq => hne (BitVec.eq_of_toNat_eq heq)

/-- A step that moves `sp` is that of an instruction that does not fault. -/
theorem no_fault_of_sp_ne {s t : State} (h : step s = .next t) (hrun : s.Running) (hsp : t.sp ≠ s.sp) :
    faultIn s.current s = .none := by
  by_contra hfault
  rw [step_of_fault hrun hfault] at h
  obtain rfl := Host.Outcome.next.inj h
  exact hsp rfl

/-- Settles O53: entries and `sp` are changed by instructions alone; 2NNN writes the entry at `sp` and moves `sp` up,
00EE moves it down. -/
theorem stackChangesOnlyByCallAndReturn : Obligations.StackChangesOnlyByCallAndReturn := by
  refine fun s t h => ⟨fun j hne => ?_, fun hne => ?_⟩
  · obtain ⟨hrun, hsp, nnn, hcur⟩ := mayWrite_of_step h (p := .stack j) trivial hne
    obtain ⟨t', ht', hpushed, -⟩ := callPushesReturnAddress s.ready nnn j hsp
    rw [step_running hrun, hcur, ht'] at h
    obtain rfl := Host.Outcome.next.inj h
    exact ⟨hsp, hpushed, nnn, hcur⟩
  · obtain ⟨hrun, hcur⟩ := mayWrite_of_step h (p := .sp) trivial fun heq => hne (Fin.ext heq)
    have hnofault := no_fault_of_sp_ne h hrun hne
    rw [← faultIn_ready] at hnofault
    rcases hcur with hcur | ⟨nnn, hcur⟩
    · rw [hcur] at hnofault
      have hentry := entry_of_no_fault hnofault
      rw [step_running hrun, hcur, exec_ret_of_entry hentry] at h
      obtain rfl := Host.Outcome.next.inj h
      exact .inl ⟨hcur, Nat.sub_add_cancel hentry⟩
    · rw [hcur] at hnofault
      have hroom := room_of_no_fault hnofault
      rw [step_running hrun, hcur, exec_call_of_room nnn hroom] at h
      obtain rfl := Host.Outcome.next.inj h
      exact .inr ⟨⟨nnn, hcur⟩, rfl⟩

/-! ### The dirty flag and the key wait -/

/-- After a running cycle `dirty` is set exactly by 00E0 and DXYN. -/
theorem dirty_of_running {s t : State} (hrun : s.Running) (h : step s = .next t) :
    t.dirty = true ↔ s.current = .cls ∨ ∃ x y n, s.current = .drw x y n := by
  rw [step_running hrun] at h
  constructor
  · intro hdirty
    by_contra hnot
    have hkept := bool_eq_of_toNat_eq (value_of_exec h (p := .dirty) hnot)
    rw [hdirty] at hkept
    cases hkept
  · rintro (hcur | ⟨x, y, n, hcur⟩)
    all_goals
      rw [hcur] at h
      obtain rfl := Host.Outcome.next.inj h
      rfl

/-- After a running cycle the core waits exactly when it executed FX0A. -/
theorem waiting_of_running {s t : State} (hrun : s.Running) (h : step s = .next t) :
    t.waiting = true ↔ ∃ x, s.current = .ldVxK x := by
  rw [step_running hrun] at h
  constructor
  · intro hwait
    by_contra hnot
    have hkept := bool_eq_of_toNat_eq (value_of_exec h (p := .waiting) hnot)
    rw [hwait, State.ready_waiting, hrun.2] at hkept
    cases hkept
  · rintro ⟨x, hcur⟩
    rw [hcur] at h
    obtain rfl := Host.Outcome.next.inj h
    rfl

/-- A waiting core's look at the keys leaves `dirty` and `fault` clear and memory as it was. -/
theorem State.keyWaitResolve_latched (s : State) :
    ((s.latchInput s.nextInput).keyWaitResolve s.keys).dirty = false ∧
    ((s.latchInput s.nextInput).keyWaitResolve s.keys).fault = s.fault ∧
    ((s.latchInput s.nextInput).keyWaitResolve s.keys).mem = s.mem ∧
    ((s.latchInput s.nextInput).keyWaitResolve s.keys).keys = s.nextInput.keys := by
  rcases (s.latchInput s.nextInput).keyWaitResolve_cases s.keys with ⟨-, h⟩ | ⟨k, -, h⟩
  · rw [h]; exact ⟨rfl, rfl, rfl, rfl⟩
  · rw [h]; exact ⟨rfl, rfl, rfl, rfl⟩

/-- Settles O50: a halted core shows no dirty flag, a waiting one clears it, and a running one sets it in 00E0 and DXYN,
which raise no fault. -/
theorem dirtyMarksClearAndDraw : Obligations.DirtyMarksClearAndDraw := by
  intro s t h
  rcases step_cases h with ⟨hf, rfl⟩ | ⟨hf, hw, rfl⟩ | ⟨hrun, hexec⟩
  · have hclear := (haltedCoreNeverChanges t 0 hf).2
    exact iff_of_false (by rw [hclear]; exact Bool.false_ne_true) fun hrun => hf hrun.1.1
  · obtain ⟨hclear, -⟩ := s.keyWaitResolve_latched
    refine iff_of_false (by rw [State.dirtyOut, hclear]; exact Bool.false_ne_true) fun hrun => ?_
    rw [hrun.1.2] at hw
    cases hw
  · rw [State.dirtyOut, Bool.and_eq_true, decide_eq_true_eq, dirty_of_running hrun h, and_iff_right hrun]
    refine and_iff_left_of_imp fun hcur => ?_
    have hnofault : faultIn s.current s.ready = .none := by
      rcases hcur with hcur | ⟨x, y, n, hcur⟩
      · rw [hcur]; rfl
      · rw [hcur]; rfl
    exact (fault_of_exec hexec hnofault).trans hrun.1

/-- The keys that can resolve a wait, one by one (R233, R234). -/
theorem qualifyingKeys_iff (s : State) (k : Fin 16) :
    ((s.latchInput s.nextInput).qualifyingKeys s.keys).getLsbD k.val = true ↔ Qualifies s k := by
  unfold State.qualifyingKeys Qualifies
  rw [State.latchInput_params, State.latchInput_keys]
  cases s.params.trigger with
  | level => simp
  | edge => simp [k.isLt]

/-- What a waiting cycle answers: the state with the keys stored when no key qualifies, else the least key delivered. -/
theorem keyWaitResolve_of_qualifies (s : State) :
    ((∀ k, ¬ Qualifies s k) ∧ (s.latchInput s.nextInput).keyWaitResolve s.keys = s.latchInput s.nextInput) ∨
    ∃ k, Qualifies s k ∧ (∀ j < k, ¬ Qualifies s j) ∧ (s.latchInput s.nextInput).keyWaitResolve s.keys =
      { (s.latchInput s.nextInput).setReg s.waitReg (BitVec.ofNat 8 k.val) with waiting := false } := by
  rcases (s.latchInput s.nextInput).keyWaitResolve_cases s.keys with ⟨hleast, h⟩ | ⟨k, hleast, h⟩
  · refine .inl ⟨fun k => ?_, h⟩
    rw [← qualifyingKeys_iff, leastKey_none hleast k]
    exact Bool.false_ne_true
  · obtain ⟨hk, hlow⟩ := leastKey_some hleast
    refine .inr ⟨k, (qualifyingKeys_iff s k).mp hk, fun j hj => ?_, h⟩
    rw [← qualifyingKeys_iff, hlow j hj]
    exact Bool.false_ne_true

/-- Settles O48: no key qualifies and the state with the keys stored is the answer, or the least one that does is
delivered. -/
theorem keyWaitResolvesOnLeastKey : Obligations.KeyWaitResolvesOnLeastKey := by
  intro s hf hw
  obtain ⟨hdirty, -, -, hkeys⟩ := s.keyWaitResolve_latched
  refine ⟨_, step_waiting hf hw, hkeys, hdirty, ?_, ?_, fun p hkey hreg hwait hdirty => ?_⟩
  · intro hnone
    rcases keyWaitResolve_of_qualifies s with ⟨-, h⟩ | ⟨k, hk, -⟩
    · rw [h]; exact ⟨hw, rfl⟩
    · exact absurd hk (hnone k)
  · intro k hk hlow
    rcases keyWaitResolve_of_qualifies s with ⟨hnone, -⟩ | ⟨k', hk', hlow', h⟩
    · exact absurd hk (hnone k)
    · obtain rfl : k = k' := le_antisymm (not_lt.mp fun hlt => hlow k' hlt hk') (not_lt.mp fun hlt => hlow' k hlt hk)
      rw [h]
      refine ⟨rfl, (congrArg BitVec.toNat (State.reg_setReg_self _ s.waitReg _)).trans ?_⟩
      rw [BitVec.toNat_ofNat]
      omega
  · rw [value_keyWaitResolve (s.latchInput s.nextInput) _ hreg hwait, value_latchInput _ _ hkey hdirty]

/-- Settles O49: of the instructions FX0A alone writes the flag, and a wait that ends has delivered a qualifying key. -/
theorem onlyWaitKeyStartsTheWait : Obligations.OnlyWaitKeyStartsTheWait := by
  refine fun s t h => ⟨fun hrun => waiting_of_running hrun h, fun hf hw hleft => ?_⟩
  rw [step_waiting hf hw] at h
  obtain rfl := Host.Outcome.next.inj h
  rcases keyWaitResolve_of_qualifies s with ⟨-, h⟩ | ⟨k, hk, -⟩
  · rw [h] at hleft
    cases hw.symm.trans hleft
  · exact ⟨k, hk⟩

/-! ### The invariant -/

/-- A faulting instruction still shows its fault in the state it leaves. -/
theorem faultIn_with_fault (i : Instr) (s : State) (c : FaultCode) : faultIn i { s with fault := c } = faultIn i s := by
  cases i <;> rfl

/-- A faulting cycle ends in the invariant: the fetch and the fault's condition are as they were, and the core neither
waits nor is dirty. -/
theorem inv_of_fault {s : State} (hs : s.Inv) (hrun : s.Running) :
    State.Inv { s.ready with fault := faultIn s.current s } where
  memory := hs.memory
  faultExplained := fun _ => by
    show faultIn s.current { s.ready with fault := faultIn s.current s } = faultIn s.current s
    rw [faultIn_with_fault, faultIn_ready]
  haltedIdle := fun _ => ⟨hrun.2, rfl⟩
  waitingClean := fun _ => rfl

/-- Settles O54: a halted core stays, a waiting one clears `dirty` and keeps memory, and a running one either faults as
`inv_of_fault` says or runs on, with canonical memory, and waits only after FX0A, which sets no `dirty`. -/
theorem stepKeepsTheInvariant : Obligations.StepKeepsTheInvariant := by
  intro s t hs h
  rcases step_cases h with ⟨-, rfl⟩ | ⟨hf, -, rfl⟩ | ⟨hrun, hexec⟩
  · exact hs
  · obtain ⟨hdirty, hfault, hmem, -⟩ := s.keyWaitResolve_latched
    have hnone := hfault.trans hf
    refine ⟨?_, fun hne => absurd hnone hne, fun hne => absurd hnone hne, fun _ => hdirty⟩
    rw [keyWaitResolve_params, hmem]
    exact hs.memory
  · by_cases hfault : faultIn s.current s = .none
    · rw [← faultIn_ready] at hfault
      have hnone := (fault_of_exec hexec hfault).trans hrun.1
      refine ⟨(leaves_of_exec hexec).2 hs.memory, fun hne => absurd hnone hne, fun hne => absurd hnone hne,
        fun hwait => ?_⟩
      obtain ⟨x, hcur⟩ := (waiting_of_running hrun h).mp hwait
      rw [Bool.eq_false_iff, ne_eq, dirty_of_running hrun h, hcur]
      simp
    · rw [step_of_fault hrun hfault] at h
      obtain rfl := Host.Outcome.next.inj h
      exact inv_of_fault hs hrun

end Sys2Proof.Machine
end

section
/-! SUPPORT. Canonical memories, the reset and the outputs (20_memory section 1, 70_reset_and_hazards.md, 10_state section
10), and the statements on them. -/

namespace Sys2Proof.Machine

/-! ### Canonical memories -/

/-- In a memory with rising addresses an entry is read at its address. -/
theorem Memory.read_of_mem (font : Font) {m : Memory} (hm : m.Pairwise (fun c d => c.1 < d.1)) {c : Host.Cell}
    (hc : c ∈ m) : Memory.read font m c.1 = c.2 := by
  induction m with
  | nil => cases hc
  | cons d m ih =>
    rw [List.pairwise_cons] at hm
    rw [Memory.read_cons]
    rcases List.mem_cons.mp hc with rfl | hc
    · exact if_pos rfl
    · rw [if_neg (hm.1 c hc).ne, ih hm.2 hc]

/-- An address that does not read as unlisted has an entry. -/
theorem Memory.mem_of_read_ne {font : Font} {m : Memory} {a : Nat}
    (h : Memory.read font m a ≠ Memory.unlisted font a) : (a, Memory.read font m a) ∈ m := by
  induction m with
  | nil => exact absurd rfl h
  | cons d m ih =>
    rw [Memory.read_cons] at h ⊢
    split at h
    · next had => rw [if_pos had, ← had]; exact List.mem_cons_self
    · next had => rw [if_neg had]; exact List.mem_cons_of_mem _ (ih h)

/-- The entries of a canonical memory are its bytes that differ from the reset contents. -/
theorem Memory.mem_iff_read {font : Font} {m : Memory} (hm : Memory.wf font m) (c : Host.Cell) :
    c ∈ m ↔ c.1 < 4096 ∧ Memory.read font m c.1 = c.2 ∧ c.2 ≠ Memory.unlisted font c.1 := by
  refine ⟨fun hc => ⟨(hm.2 c hc).1, Memory.read_of_mem font hm.1 hc, (hm.2 c hc).2⟩, fun ⟨_, hread, hne⟩ => ?_⟩
  have hmem := Memory.mem_of_read_ne (hread.symm ▸ hne)
  rwa [hread] at hmem

/-- Settles O7: the bytes read determine the entries, and the rising addresses their order. -/
theorem canonicalMemoriesAreDetermined : Obligations.CanonicalMemoriesAreDetermined := by
  intro font m m' hm hm' hread
  have hantisymm : Std.Antisymm (fun c d : Host.Cell => c.1 < d.1) := ⟨fun _ _ h h' => absurd h' h.asymm⟩
  have hirrefl : Std.Irrefl (fun c d : Host.Cell => c.1 < d.1) := ⟨fun _ => lt_irrefl _⟩
  refine hm.1.eq_of_mem_iff hm'.1 fun c => ?_
  rw [Memory.mem_iff_read hm, Memory.mem_iff_read hm']
  exact and_congr_right fun hlt => by rw [hread c.1 hlt]

/-! ### The reset (R280 to R285) -/

theorem resetWith_of_fits (s : State) {image : List Byte} (h : image.length ≤ 3584) :
    resetWith image s = .next (s.clear.loadBytes progBase image) := if_pos h

theorem resetWith_of_too_large (s : State) {image : List Byte} (h : 3584 < image.length) :
    resetWith image s = .refused .programTooLarge := if_neg (not_le.mpr h)

/-- Copying an image writes bytes of memory alone. -/
theorem value_loadBytes (s : State) (base : Nat) (bs : List Byte) {p : Part} (hp : ∀ a, p ≠ .mem a) :
    (s.loadBytes base bs).value p = s.value p := by
  rw [State.loadBytes_eq]
  cases p with
  | mem a => exact absurd rfl (hp a)
  | _ => rfl

/-- Settles O56: the image copy writes memory alone, and every other item is at its reset value before it. -/
theorem resetPutsRegistersInPlace : Obligations.ResetPutsRegistersInPlace := by
  intro s image h
  refine ⟨_, resetWith_of_fits s h, ?_, fun p hpc hmem => ?_, ?_⟩
  · rw [value_loadBytes _ _ _ fun _ => Part.noConfusion]
    rfl
  · rw [value_loadBytes _ _ _ hmem]
    cases p with
    | mem a => exact absurd rfl (hmem a)
    | pc => exact absurd rfl hpc
    | pixel r c => exact congrArg Bool.toNat (Framebuffer.pixel_blank r c)
    | key k => exact congrArg Bool.toNat BitVec.getLsbD_zero
    | reg r => exact congrArg BitVec.toNat (Vector.getElem_replicate r.isLt)
    | stack j => exact congrArg BitVec.toNat (Vector.getElem_replicate j.isLt)
    | _ => rfl
  · rw [State.loadBytes_eq]
    exact ⟨rfl, rfl⟩

/-- A copied byte is read back at its address, when the copy ends below 4096. -/
theorem State.memRead_loadBytes (s : State) (base : Nat) (bs : List Byte) (hfits : base + bs.length ≤ 4096) (j : Nat)
    (hj : j < bs.length) : (s.loadBytes base bs).memRead (base + j) = bs[j] := by
  induction bs generalizing s base j with
  | nil => cases hj
  | cons b bs ih =>
    rw [List.length_cons] at hfits
    rw [State.loadBytes]
    cases j with
    | zero =>
      rw [State.memRead_loadBytes_ne _ _ _ _ (by intro i hi; omega), State.memRead_memWrite]
      exact if_pos rfl
    | succ j =>
      rw [← Nat.add_assoc, Nat.add_right_comm]
      exact ih (s.memWrite base b) (base + 1) (by omega) j (Nat.lt_of_succ_lt_succ hj)

/-- After clearing, memory has no entries. -/
theorem State.memRead_clear (s : State) (a : Nat) : s.clear.memRead a = Memory.unlisted s.params.font (a % 4096) := rfl

/-- Settles O57: the image is read back where it was copied, and every other byte is at its reset contents. -/
theorem resetFillsMemory : Obligations.ResetFillsMemory := by
  intro s image h
  have houtside (a : Nat) (ha : a < 0x200 ∨ 0x200 + image.length ≤ a) (hlt : a < 4096) :
      (s.clear.loadBytes progBase image).memRead a = Memory.unlisted s.params.font a := by
    rw [State.memRead_loadBytes_ne _ _ _ _ (by intro j hj; rw [progBase]; omega), State.memRead_clear, Nat.mod_eq_of_lt hlt]
  refine ⟨_, resetWith_of_fits s h, fun g k => ?_, fun j hj => ?_, fun a hlt hfont ha => ?_⟩
  · have hglyph : (5 * g.val + k.val) / 5 = g.val := by omega
    have hrow : (5 * g.val + k.val) % 5 = k.val := by omega
    rw [houtside _ (by omega) (by omega), Memory.unlisted, dif_pos (by omega)]
    simp only [hglyph, hrow]
  · exact State.memRead_loadBytes _ progBase image (by rw [progBase]; omega) j hj
  · rw [houtside a ha hlt, Memory.unlisted, dif_neg (by omega)]

/-- The reset state meets the invariant, with whatever image is copied. -/
theorem inv_loadBytes_clear (s : State) (image : List Byte) : (s.clear.loadBytes progBase image).Inv := by
  have hmem := State.wf_loadBytes (s := s.clear) progBase image (Memory.wf_nil _)
  rw [State.loadBytes_eq] at hmem ⊢
  exact ⟨hmem, fun h => absurd rfl h, fun h => absurd rfl h, fun _ => rfl⟩

/-- Settles O55: the reset state is the cleared one with no image, and a reset that answers has copied its image. -/
theorem resetMeetsTheInvariant : Obligations.ResetMeetsTheInvariant := by
  refine ⟨inv_loadBytes_clear State.reset [], fun s t image h => ?_⟩
  by_cases hfits : image.length ≤ 3584
  · rw [resetWith_of_fits s hfits] at h
    obtain rfl := Host.Outcome.next.inj h
    exact inv_loadBytes_clear s image
  · rw [resetWith_of_too_large s (not_le.mp hfits)] at h
    cases h

/-- Settles O58: the cleared state is formed from the parameters and the input streams. -/
theorem resetForgetsTheState : Obligations.ResetForgetsTheState := by
  intro s s' image hparams hinputs hdrawn
  have hclear : s'.clear = s.clear := by rw [State.clear, State.clear, hparams, hinputs, hdrawn]
  rw [resetWith, resetWith, hclear]

/-- Settles O59: the reset decides by the image's length. -/
theorem tooLargeImageIsRefused : Obligations.TooLargeImageIsRefused := fun s _ =>
  ⟨resetWith_of_too_large s, fun h => ⟨_, resetWith_of_fits s h⟩⟩

/-! ### The outputs (R43, R44) -/

theorem pixelByte_toNat (lit : Bool) : (pixelByte lit).toNat = lit.toNat := by cases lit <;> rfl

/-- A code number is read off the output exactly when its fault is recorded. -/
theorem faultOut_eq_iff (s : State) (c : FaultCode) : s.faultOut.toNat = c.bits.toNat ↔ s.fault = c :=
  ⟨FaultCode.bits_toNat_inj, fun h => by rw [State.faultOut, h]⟩

/-- Settles O60: byte `r * 64 + c` is formed from pixel (r, c), and each code has its own number. -/
theorem outputsShowPixelsAndSound : Obligations.OutputsShowPixelsAndSound := by
  refine fun s => ⟨fun r c h => ?_, decide_eq_true_iff, rfl, faultOut_eq_iff s .none,
    faultOut_eq_iff s .callStackOverflow, faultOut_eq_iff s .callStackUnderflow,
    faultOut_eq_iff s .keyIndexOutOfRange⟩
  have hrow : (r.val * 64 + c.val) / 64 = r.val := by omega
  have hcol : (r.val * 64 + c.val) % 64 = c.val := by omega
  rw [State.fbOut, Vector.getElem_ofFn, pixelByte_toNat]
  simp only [hrow, hcol]
  rfl

end Sys2Proof.Machine
end

section
/-! SUPPORT. What an instruction does not depend on: the random byte (R41), VF_ORDER (R121) and the registers R24 does
not list, each by a commuting square: changing it before an instruction is changing it after. -/

namespace Sys2Proof.Machine

/-! ### The random byte and VF_ORDER -/

/-- The state with another random byte and another VF_ORDER. -/
def State.withChoices (s : State) (b : Byte) (o : VfOrder) : State :=
  { s with rndIn := b, params := { s.params with vfOrder := o } }

theorem State.storeRegs_withChoices (s : State) (b : Byte) (o : VfOrder) (base : Nat) (rs : List Reg) :
    (s.withChoices b o).storeRegs base rs = (s.storeRegs base rs).withChoices b o := by
  induction rs generalizing s with
  | nil => rfl
  | cons i rs ih => exact ih (s.memWrite (base + i.val) (s.reg i))

theorem State.loadRegs_withChoices (s : State) (b : Byte) (o : VfOrder) (base : Nat) (rs : List Reg) :
    (s.withChoices b o).loadRegs base rs = (s.loadRegs base rs).withChoices b o := by
  induction rs generalizing s with
  | nil => rfl
  | cons i rs ih => exact ih (s.setReg i (s.memRead (base + i.val)))

/-- Operands other than VF: the flag does not reach them, so both orders leave the same registers. -/
theorem State.reg_resultAndFlag_of_ne_vf (s : State) {x y : Reg} (result : Byte → Byte → Byte)
    (flag : Byte → Byte → Bool) (hx : vf ≠ x) (hy : vf ≠ y) (q : Reg) :
    (s.resultAndFlag x y result flag).reg q =
      if x = q then result (s.reg x) (s.reg y)
      else if vf = q then flagByte (flag (s.reg x) (s.reg y)) else s.reg q := by
  cases h : s.params.vfOrder with
  | flagLast =>
    rw [State.reg_resultAndFlag_flagLast _ _ _ _ _ _ h]
    by_cases hxq : x = q
    · subst hxq
      rw [if_neg hx, if_pos rfl, if_pos rfl]
    · rw [if_neg hxq, if_neg hxq]
  | asListed =>
    rw [State.reg_resultAndFlag_asListed _ _ _ _ _ _ h]
    simp only [if_neg hx, if_neg hy]

/-- A result and a flag do not depend on the random byte, nor on the order where the operands are not VF. -/
theorem State.resultAndFlag_withChoices (s : State) (b : Byte) (o : VfOrder) (x y : Reg) (result : Byte → Byte → Byte)
    (flag : Byte → Byte → Bool) (ho : o = s.params.vfOrder ∨ x ≠ 15 ∧ y ≠ 15) :
    (s.withChoices b o).resultAndFlag x y result flag = (s.resultAndFlag x y result flag).withChoices b o := by
  have hV : ((s.withChoices b o).resultAndFlag x y result flag).V = (s.resultAndFlag x y result flag).V := by
    refine State.V_ext fun q => ?_
    rcases ho with rfl | ⟨hx, hy⟩
    · cases h : s.params.vfOrder with
      | flagLast =>
        rw [State.reg_resultAndFlag_flagLast _ _ _ _ _ _ h, State.reg_resultAndFlag_flagLast _ _ _ _ _ _ rfl]
        rfl
      | asListed =>
        rw [State.reg_resultAndFlag_asListed _ _ _ _ _ _ h, State.reg_resultAndFlag_asListed _ _ _ _ _ _ rfl]
        rfl
    · rw [State.reg_resultAndFlag_of_ne_vf _ _ _ hx.symm hy.symm, State.reg_resultAndFlag_of_ne_vf _ _ _ hx.symm hy.symm]
      rfl
  rw [State.resultAndFlag_eq, hV, State.resultAndFlag_eq s]
  rfl

/-- Advancing after a change of the choices. -/
theorem next_advance_withChoices {t u : State} {b : Byte} {o : VfOrder} (h : u = t.withChoices b o) :
    (Host.Outcome.next u.advance : Answer) = .next (t.advance.withChoices b o) := by
  rw [h]; rfl

/-- Another random byte and another VF_ORDER make no difference to an instruction that reads neither. -/
theorem exec_withChoices (i : Instr) (s : State) (b : Byte) (o : VfOrder)
    (hb : b = s.rndIn ∨ ∀ x kk, i ≠ .rnd x kk)
    (ho : o = s.params.vfOrder ∨ ∀ x y, (i = .sub x y ∨ i = .subn x y → x ≠ 15 ∧ y ≠ 15) ∧
      (i = .shr x y ∨ i = .shl x y → x ≠ 15)) :
    ∃ t, exec i s = .next t ∧ exec i (s.withChoices b o) = .next (t.withChoices b o) := by
  cases i
  case ret =>
    by_cases h : 0 < s.sp.val
    · exact ⟨_, dif_pos h, dif_pos h⟩
    · exact ⟨_, dif_neg h, dif_neg h⟩
  case call nnn =>
    by_cases h : s.sp.val < 16
    · exact ⟨_, dif_pos h, dif_pos h⟩
    · exact ⟨_, dif_neg h, dif_neg h⟩
  case skp x =>
    by_cases h : faultIn (.skp x) s = .none
    · obtain ⟨k, hk⟩ := key_of_no_fault h
      exact ⟨_, exec_skp_of_key hk, exec_skp_of_key (s := s.withChoices b o) hk⟩
    · exact ⟨_, exec_of_fault h, exec_of_fault (s := s.withChoices b o) h⟩
  case sknp x =>
    by_cases h : faultIn (.sknp x) s = .none
    · obtain ⟨k, hk⟩ := key_of_no_fault h
      exact ⟨_, exec_sknp_of_key hk, exec_sknp_of_key (s := s.withChoices b o) hk⟩
    · exact ⟨_, exec_of_fault h, exec_of_fault (s := s.withChoices b o) h⟩
  case rnd x kk =>
    obtain rfl := hb.resolve_right fun h => h x kk rfl
    exact ⟨_, rfl, rfl⟩
  case sub x y =>
    have ho' := ho.imp_right fun h => (h x y).1 (.inl rfl)
    exact ⟨_, rfl, next_advance_withChoices (s.resultAndFlag_withChoices b o x y _ _ ho')⟩
  case subn x y =>
    have ho' := ho.imp_right fun h => (h x y).1 (.inr rfl)
    exact ⟨_, rfl, next_advance_withChoices (s.resultAndFlag_withChoices b o x y _ _ ho')⟩
  case shr x y =>
    have ho' := ho.imp_right fun h => and_self_iff.mpr ((h x y).2 (.inl rfl))
    exact ⟨_, rfl, next_advance_withChoices (s.resultAndFlag_withChoices b o x x _ _ ho')⟩
  case shl x y =>
    have ho' := ho.imp_right fun h => and_self_iff.mpr ((h x y).2 (.inr rfl))
    exact ⟨_, rfl, next_advance_withChoices (s.resultAndFlag_withChoices b o x x _ _ ho')⟩
  case ldMemVx x =>
    exact ⟨_, rfl, next_advance_withChoices (s.storeRegs_withChoices b o s.I.toNat (blockRegs x))⟩
  case ldVxMem x =>
    exact ⟨_, rfl, next_advance_withChoices (s.loadRegs_withChoices b o s.I.toNat (blockRegs x))⟩
  all_goals exact ⟨_, rfl, rfl⟩

/-- Settles O18: another random byte is another choice with the same VF_ORDER, which no instruction writes. -/
theorem randomByteIsReadByRndOnly : Obligations.RandomByteIsReadByRndOnly := by
  intro i s b hi
  obtain ⟨t, ht, hother⟩ := exec_withChoices i s b s.params.vfOrder (.inr hi) (.inl rfl)
  obtain ⟨-, -, -, -, hparams⟩ := exec_keeps_ports ht
  refine ⟨t, ht, hother.trans ?_⟩
  rw [State.withChoices, ← hparams]

/-- Settles O20: the second value of VF_ORDER is another choice with the same random byte, and no part shows it. -/
theorem vfOrderMattersOnlyForVf : Obligations.VfOrderMattersOnlyForVf := by
  intro i s hi
  obtain ⟨t, ht, hother⟩ :=
    exec_withChoices i (s.withChoices s.rndIn .flagLast) s.rndIn .asListed (.inl rfl) (.inr hi)
  refine ⟨t, _, ht, hother, fun p => ?_⟩
  cases p <;> rfl

/-! ### Registers R24 does not list -/

/-- Writes of two different registers commute, also when the second value is read in between. -/
theorem State.setReg_setReg_comm (s : State) {r x : Reg} (b : Byte) {c c' : Byte} (hx : r ≠ x) (hc : c' = c) :
    (s.setReg r b).setReg x c' = (s.setReg x c).setReg r b := by
  rw [hc, State.setReg, State.setReg, State.setReg, State.setReg, Vector.set_comm _ _ (Fin.val_ne_of_ne hx)]

theorem State.storeRegs_setReg (s : State) (r : Reg) (b : Byte) (base : Nat) (rs : List Reg) (hr : r ∉ rs) :
    (s.setReg r b).storeRegs base rs = (s.storeRegs base rs).setReg r b := by
  induction rs generalizing s with
  | nil => rfl
  | cons i rs ih =>
    rw [List.mem_cons, not_or] at hr
    rw [State.storeRegs_cons, State.storeRegs_cons, State.reg_setReg_ne s b hr.1]
    exact ih (s.memWrite (base + i.val) (s.reg i)) hr.2

theorem State.loadRegs_setReg (s : State) (r : Reg) (b : Byte) (base : Nat) (rs : List Reg) (hr : r ∉ rs) :
    (s.setReg r b).loadRegs base rs = (s.loadRegs base rs).setReg r b := by
  induction rs generalizing s with
  | nil => rfl
  | cons i rs ih =>
    rw [List.mem_cons, not_or] at hr
    rw [State.loadRegs_cons, State.loadRegs_cons, s.setReg_setReg_comm b hr.1 (s.memRead_setReg r b _)]
    exact ih (s.setReg i (s.memRead (base + i.val))) hr.2

theorem State.resultAndFlag_setReg (s : State) {r x y : Reg} (b : Byte) (result : Byte → Byte → Byte)
    (flag : Byte → Byte → Bool) (hx : r ≠ x) (hy : r ≠ y) (hf : r ≠ vf) :
    (s.setReg r b).resultAndFlag x y result flag = (s.resultAndFlag x y result flag).setReg r b := by
  have hrx := s.reg_setReg_ne b hx
  have hry := s.reg_setReg_ne b hy
  unfold State.resultAndFlag
  rw [State.setReg_params]
  cases s.params.vfOrder with
  | flagLast =>
    simp only [hrx, hry, State.setVF]
    rw [s.setReg_setReg_comm b hx rfl, State.setReg_setReg_comm _ b hf rfl]
  | asListed =>
    simp only [hrx, hry, State.setVF]
    rw [s.setReg_setReg_comm b hf rfl, State.reg_setReg_ne _ b hx, State.reg_setReg_ne _ b hy,
      State.setReg_setReg_comm _ b hx rfl]

/-- Advancing after a change of one register. -/
theorem next_advance_setReg {t u : State} {r : Reg} {b : Byte} (h : u = t.setReg r b) :
    (Host.Outcome.next u.advance : Answer) = .next (t.advance.setReg r b) := by
  rw [h]; rfl

/-- A fault does not depend on a register R24 does not list. -/
theorem faultIn_setReg {i : Instr} {r : Reg} (s : State) (b : Byte) (h : touchesReg i r = false) :
    faultIn i (s.setReg r b) = faultIn i s := by
  cases i
  case skp x | sknp x =>
    have hx : r ≠ x := by simpa [touchesReg] using h
    rw [faultIn, faultIn, State.reg_setReg_ne s b hx]
  all_goals rfl

/-- Another value in a register R24 does not list makes no difference to an instruction that does not fault. -/
theorem exec_setReg_of_no_fault {i : Instr} {s : State} {r : Reg} (b : Byte) (h : touchesReg i r = false)
    (hf : faultIn i s = .none) : ∃ t, exec i s = .next t ∧ exec i (s.setReg r b) = .next (t.setReg r b) := by
  cases i
  case cls | jp nnn | ldINnn nnn | ldVxK x | unmapped w => exact ⟨_, rfl, rfl⟩
  case ret =>
    have hentry := entry_of_no_fault hf
    exact ⟨_, exec_ret_of_entry hentry, exec_ret_of_entry (s := s.setReg r b) hentry⟩
  case call nnn =>
    have hroom := room_of_no_fault hf
    exact ⟨_, exec_call_of_room nnn hroom, exec_call_of_room (s := s.setReg r b) nnn hroom⟩
  case skp x =>
    have hx : r ≠ x := by simpa [touchesReg] using h
    obtain ⟨k, hk⟩ := key_of_no_fault hf
    have hk' : (s.setReg r b).value (.reg x) = k.val := by rw [State.value, State.reg_setReg_ne s b hx]; exact hk
    exact ⟨_, exec_skp_of_key hk, exec_skp_of_key hk'⟩
  case sknp x =>
    have hx : r ≠ x := by simpa [touchesReg] using h
    obtain ⟨k, hk⟩ := key_of_no_fault hf
    have hk' : (s.setReg r b).value (.reg x) = k.val := by rw [State.value, State.reg_setReg_ne s b hx]; exact hk
    exact ⟨_, exec_sknp_of_key hk, exec_sknp_of_key hk'⟩
  case jpV0Nnn nnn =>
    have h0 : r ≠ 0 := by simpa [touchesReg] using h
    refine ⟨_, rfl, ?_⟩
    rw [exec, execJpV0Nnn, State.indexedTarget, State.reg_setReg_ne s b h0]
    rfl
  case seVxKk x kk | sneVxKk x kk | ldDtVx x | ldStVx x | ldFVx x | ldBVx x =>
    have hx : r ≠ x := by simpa [touchesReg] using h
    refine ⟨_, rfl, ?_⟩
    simp only [exec, execSeVxKk, execSneVxKk, execLdDtVx, execLdStVx, execLdFVx, execLdBVx, State.reg_setReg_ne s b hx]
    rfl
  case seVxVy x y | sneVxVy x y =>
    obtain ⟨hx, hy⟩ : r ≠ x ∧ r ≠ y := by simpa [touchesReg] using h
    refine ⟨_, rfl, ?_⟩
    simp only [exec, execSeVxVy, execSneVxVy, State.reg_setReg_ne s b hx, State.reg_setReg_ne s b hy]
    rfl
  case ldVxKk x _ | rnd x _ | ldVxDt x =>
    have hx : r ≠ x := by simpa [touchesReg] using h
    exact ⟨_, rfl, next_advance_setReg (s.setReg_setReg_comm b hx rfl)⟩
  case addVxKk x kk =>
    have hx : r ≠ x := by simpa [touchesReg] using h
    exact ⟨_, rfl, next_advance_setReg (s.setReg_setReg_comm b hx (by rw [State.reg_setReg_ne s b hx]))⟩
  case ldVxVy x y | or x y | and x y | xor x y =>
    obtain ⟨hx, hy⟩ : r ≠ x ∧ r ≠ y := by simpa [touchesReg] using h
    refine ⟨_, rfl, next_advance_setReg (s.setReg_setReg_comm b hx ?_)⟩
    simp only [State.reg_setReg_ne s b hx, State.reg_setReg_ne s b hy]
  case addVxVy x y =>
    obtain ⟨⟨hx, hy⟩, hvf⟩ : (r ≠ x ∧ r ≠ y) ∧ r ≠ 15 := by simpa [touchesReg] using h
    refine ⟨_, rfl, ?_⟩
    simp only [exec, execAddVxVy, State.reg_setReg_ne s b hx, State.reg_setReg_ne s b hy]
    refine next_advance_setReg ?_
    rw [s.setReg_setReg_comm b hx rfl]
    exact State.setReg_setReg_comm _ b hvf rfl
  case sub x y | subn x y =>
    obtain ⟨⟨hx, hy⟩, hvf⟩ : (r ≠ x ∧ r ≠ y) ∧ r ≠ 15 := by simpa [touchesReg] using h
    exact ⟨_, rfl, next_advance_setReg (s.resultAndFlag_setReg b _ _ hx hy hvf)⟩
  case shr x y | shl x y =>
    obtain ⟨hx, hvf⟩ : r ≠ x ∧ r ≠ 15 := by simpa [touchesReg] using h
    exact ⟨_, rfl, next_advance_setReg (s.resultAndFlag_setReg b _ _ hx hx hvf)⟩
  case drw x y n =>
    obtain ⟨⟨hx, hy⟩, hvf⟩ : (r ≠ x ∧ r ≠ y) ∧ r ≠ 15 := by simpa [touchesReg] using h
    refine ⟨_, rfl, ?_⟩
    simp only [exec, execDrw, State.reg_setReg_ne s b hx, State.reg_setReg_ne s b hy]
    exact next_advance_setReg (State.setReg_setReg_comm (s.paint _) b hvf rfl)
  case addIVx x =>
    obtain ⟨hx, hvf⟩ : r ≠ x ∧ r ≠ 15 := by simpa [touchesReg] using h
    have hsum : (s.setReg r b).indexSum x = s.indexSum x := by
      rw [State.indexSum, State.indexSum, State.reg_setReg_ne s b hx, State.setReg_I]
    refine ⟨_, rfl, ?_⟩
    simp only [exec, execAddIVx, hsum]
    exact next_advance_setReg (State.setReg_setReg_comm (s.setI (BitVec.ofNat 12 (s.indexSum x))) b hvf rfl)
  case ldMemVx x =>
    have hr : r ∉ blockRegs x := fun hmem => of_decide_eq_false h ((mem_blockRegs x r).mp hmem)
    exact ⟨_, rfl, next_advance_setReg (s.storeRegs_setReg r b s.I.toNat _ hr)⟩
  case ldVxMem x =>
    have hr : r ∉ blockRegs x := fun hmem => of_decide_eq_false h ((mem_blockRegs x r).mp hmem)
    exact ⟨_, rfl, next_advance_setReg (s.loadRegs_setReg r b s.I.toNat _ hr)⟩

/-- Settles O19: an unlisted register is no part the instruction may write, and another value in it passes through, also
past a fault. -/
theorem unlistedRegistersAreUntouched : Obligations.UnlistedRegistersAreUntouched := by
  intro i s r b h
  obtain ⟨t, ht, hother⟩ : ∃ t, exec i s = .next t ∧ exec i (s.setReg r b) = .next (t.setReg r b) := by
    by_cases hf : faultIn i s = .none
    · exact exec_setReg_of_no_fault b h hf
    · have hsame := faultIn_setReg s b h
      refine ⟨_, exec_of_fault hf, ?_⟩
      rw [exec_of_fault (hsame ▸ hf), hsame]
      rfl
  have hunwritten : ¬ mayWrite i s (.reg r) := by rw [mayWrite, h]; exact Bool.false_ne_true
  exact ⟨t, ht, BitVec.eq_of_toNat_eq (value_of_exec ht hunwritten), hother⟩

end Sys2Proof.Machine
end
